-- ==== Sys2Proof/Word.lean ====
section
/-! DEFINITION. The value types of the block: bytes, 32-bit words, and the exact natural number a word stands for (R15, R16). -/

namespace Sys2Proof

/-- `u8` of R15: an unsigned 8-bit value. -/
abbrev Byte := BitVec 8

/-- `u32` of R15: an unsigned 32-bit value. Every operand, register and tick is one. -/
abbrev Word := BitVec 32

end Sys2Proof
end

