-- ==== Sys2Proof/Config.lean ====
section
/-! DEFINITION. The parameters of R11, R12 and R13, the constraints of R14, and the free values behind the oracle draws of R8. -/

namespace Sys2Proof

/-- What one consumed bus call answers (R401, R402). -/
inductive BusOutcome where
  | ok | busError | busTimeout
  deriving DecidableEq, Repr, Inhabited

/-- The nine device instruction bytes `INS_*`, open parameters of R13. -/
structure InsBytes where
  rsten : Byte
  rst   : Byte
  rdid  : Byte
  rdsr  : Byte
  wren  : Byte
  en4b  : Byte
  se4   : Byte
  pp4   : Byte
  read4 : Byte
  deriving DecidableEq, Repr

/-- The parameters a model instance is built with (R11, R12, R13).
The widths of R11 and R12 that are types here (`ADDR_BITS` and `TICK_BITS`: `Word`; `ID_LEN`: three bytes of `ID`; `SR_LEN`: one byte) have no field. -/
structure Params where
  /-- `BASE` (R13): where the 64 KiB window lies in the host's address space. -/
  base            : Nat
  /-- `T_BUS_MS` (R13): the timeout passed to each consumed bus call. DESIGN CHOICE (log 1): the spec gives it no width, and it is a 32-bit word, as `T_WEL_MS` is by R303. -/
  tBusMs          : Word
  /-- `T_WEL_MS` (R13): the handshake timeout. -/
  tWelMs          : Word
  /-- `INS_*` (R13). -/
  ins             : InsBytes
  /-- `PAGE_SIZE` (R11). -/
  pageSize        : Word
  /-- `SUBSECTOR_SIZE` (R11). -/
  subsectorSize   : Word
  /-- `ERASED_BYTE` (R11). -/
  erasedByte      : Byte
  /-- `WIP_BIT` (R11). -/
  wipBit          : Fin 8
  /-- `WEL_BIT` (R11). -/
  welBit          : Fin 8
  /-- `BUF_SIZE` (R12). -/
  bufSize         : Nat
  /-- `POLL_GAP_MS` (R12, R455). DESIGN CHOICE (log 1): the spec gives it no width, and it is a 32-bit word, compared with the 32-bit elapsed ticks. -/
  pollGapMs       : Word
  /-- `ERASE_ALIGN_CHECK` (R12). -/
  eraseAlignCheck : Bool
  /-- `SETTLE_TICKS` (R12, R620). DESIGN CHOICE (log 1): no width in the spec either, and a 32-bit word for the same reason. -/
  settleTicks     : Word
  deriving DecidableEq, Repr

namespace Config

/-- `ADDR_BITS` (R11). -/
def addrBits : Nat := 32
/-- `TICK_BITS` (R12). -/
def tickBits : Nat := 32
/-- `ID_LEN` (R11). -/
def idLen : Word := 3
/-- `SR_LEN` (R11). -/
def srLen : Word := 1
/-- `RESET_SETTLE_MS` (R11): the settle time of the device contract (R229); the engine never reads it. -/
def resetSettleMs : Nat := 1
/-- `READ_DUMMY` (R11). -/
def readDummy : BitVec 5 := 0

/-- The open parameter `BASE`: the spec gives no value (R13), so nothing is known of it. -/
opaque base : Nat
/-- The open parameter `T_BUS_MS`: no value in the spec (R13). -/
opaque tBusMs : Word
/-- The open parameter `T_WEL_MS`: no value in the spec (R13). -/
opaque tWelMs : Word

/-- A transport outcome nobody supplied (R8, R401): free, one per draw number. -/
opaque freeOutcome : Nat → BusOutcome
/-- A received byte nobody supplied (R8, R220): free, one per draw number. -/
opaque freeByte : Nat → Byte
/-- A tick sample nobody supplied (R8, R720): free, one per draw number. -/
opaque freeTick : Nat → Word

/-- PRESUMED (log 2): the bytes R13 offers from general knowledge; no rule depends on them (R311). -/
def defaultIns : InsBytes :=
  { rsten := 0x66, rst := 0x99, rdid := 0x9F, rdsr := 0x05, wren := 0x06,
    en4b := 0xB7, se4 := 0x21, pp4 := 0x12, read4 := 0x13 }

/-- The instance of R11, R12 and R13: source constants, decided parameters, open parameters left free. -/
def standard : Params :=
  { base := base, tBusMs := tBusMs, tWelMs := tWelMs, ins := defaultIns,
    pageSize := 256, subsectorSize := 4096, erasedByte := 0xFF, wipBit := 0, welBit := 1,
    bufSize := 4096, pollGapMs := 0, eraseAlignCheck := true, settleTicks := 2 }

end Config

/-- Whether a word is a power of two. -/
def isPowerOfTwo (v : Word) : Bool := v != 0 && v &&& (v - 1) == 0

/-- The constraints of R14. The `INS_*` range is the type `Byte`, and the bit numbers' range the type `Fin 8`. -/
def Params.wf (p : Params) : Bool :=
  decide (p.pageSize.toNat ≤ p.bufSize) && decide (p.bufSize ≤ 0xFF00)
    && isPowerOfTwo p.pageSize && isPowerOfTwo p.subsectorSize
    && p.subsectorSize.toNat % p.pageSize.toNat == 0 && p.wipBit != p.welBit

/-- Nine instruction bytes that tell the nine rows of R310 apart: bytes may coincide only in rows that `ADW` and `DIR` already tell apart. -/
def InsBytes.distinct (b : InsBytes) : Bool :=
  b.rsten != b.rst && b.rsten != b.wren && b.rsten != b.en4b && b.rst != b.wren && b.rst != b.en4b
    && b.wren != b.en4b && b.rdid != b.rdsr

end Sys2Proof
end

