-- ==== Sys2Proof/Syntax.lean ====
section
/-! DEFINITION. The two levels of instruction of R2: host operations (Format H, R302) and device instructions (Format B, R310), as data. -/

namespace Sys2Proof

/-- The sixteen values of `OP` (R302): eleven operations and five reserved codes. -/
inductive Op where
  | reserved0 | reset | readId | en4b | writeEnable | waitBusy | erase | program
  | read | verifyErased | verifyData | selftest | reservedC | reservedD | reservedE | reservedF
  deriving DecidableEq, Repr

/-- The nine device instructions (R310). -/
inductive DevName where
  | rsten | rst | rdid | rdsr | wren | en4b | se4 | pp4 | read4
  deriving DecidableEq, Repr

/-- `DIR` of a descriptor (R306). The reserved code 0b11 has no constructor: the block never emits it. -/
inductive Dir where
  | none | read | write
  deriving DecidableEq, Repr

/-- A command descriptor (R305): the fields of its three words. `adw` is the `ADW` bit (R307). -/
structure Desc where
  instr : Byte
  adw   : Bool
  dir   : Dir
  dummy : BitVec 5
  addr  : Word
  dlen  : Word
  deriving DecidableEq, Repr

/-- Which port an instruction word belongs to: `CMD` (Format H, R301) or the bus command descriptor (Format B, R305). -/
inductive Format where
  | host | bus
  deriving DecidableEq, Repr

/-- The instructions: one constructor per row of spec/opcode_table.json.
Host operations carry no operand (R303: every operand is latched). A device instruction carries the operands its row uses (R310): `a` the flash address, `n` the data length. -/
inductive Instr where
  | reset | readId | en4b | writeEnable | waitBusy | erase | program | read
  | verifyErased | verifyData | selftest
  | reserved0 | reservedC | reservedD | reservedE | reservedF
  | rsten | rst | rdid | rdsr | wren | en4bBus
  | se4 (a : Word)
  | pp4 (a n : Word)
  | read4 (a n : Word)
  deriving DecidableEq, Repr

end Sys2Proof
end

