-- ==== Sys2Proof/WellFormed.lean ====
section
/-! DEFINITION. Which device instructions the block can emit (R210, R211, R212, R214) and which descriptors are well formed (R308). -/

namespace Sys2Proof

/-- R210: a program's length is 1..PAGE_SIZE and its last byte lies in the page of its first (exact arithmetic, R16). -/
def programRange (p : Params) (a n : Word) : Bool :=
  decide (n.toNat ≠ 0) && decide (n.toNat ≤ p.pageSize.toNat)
    && decide (a.toNat % p.pageSize.toNat + n.toNat ≤ p.pageSize.toNat)

/-- R211, second part: an erase address is aligned when `ERASE_ALIGN_CHECK` is true. -/
def eraseAligned (p : Params) (a : Word) : Bool :=
  !p.eraseAlignCheck || decide (a.toNat % p.subsectorSize.toNat = 0)

/-- R212: a read's length is at least 1 and it does not run past the top of the address space. -/
def readRange (a n : Word) : Bool :=
  decide (n.toNat ≠ 0) && decide (a.toNat + n.toNat ≤ 2 ^ Config.addrBits)

/-- The instructions the block can execute as emitted: every host operation, and a device instruction whose operands meet R210, R211 or R212. -/
def Instr.wf (p : Params) : Instr → Bool
  | .reset => true
  | .readId => true
  | .en4b => true
  | .writeEnable => true
  | .waitBusy => true
  | .erase => true
  | .program => true
  | .read => true
  | .verifyErased => true
  | .verifyData => true
  | .selftest => true
  | .reserved0 => true
  | .reservedC => true
  | .reservedD => true
  | .reservedE => true
  | .reservedF => true
  | .rsten => true
  | .rst => true
  | .rdid => true
  | .rdsr => true
  | .wren => true
  | .en4bBus => true
  | .se4 a => eraseAligned p a
  | .pp4 a n => programRange p a n
  | .read4 a n => readRange a n

/-- The descriptor invariants of R308: (a) `ADW = 0 ⇒ ADDR = 0`; (b) `DIR = none ⇔ DLEN = 0`; (c) `DUMMY = 0`. -/
def Desc.wf (d : Desc) : Bool :=
  (d.adw || d.addr == 0) && ((d.dir == .none) == (d.dlen == 0)) && d.dummy == 0

end Sys2Proof
end

