-- ==== Sys2Proof/Decode.lean ====
section
/-! DEFINITION. The encodings of 30_encoding.md: operation codes, the rows of R310, the formatter of R407, the decoder, and the encoder after it. -/

namespace Sys2Proof

/-! ## Format H (R301, R302) -/

/-- The operation code of R302. -/
def Op.code : Op → BitVec 4
  | .reserved0 => 0x0
  | .reset => 0x1
  | .readId => 0x2
  | .en4b => 0x3
  | .writeEnable => 0x4
  | .waitBusy => 0x5
  | .erase => 0x6
  | .program => 0x7
  | .read => 0x8
  | .verifyErased => 0x9
  | .verifyData => 0xA
  | .selftest => 0xB
  | .reservedC => 0xC
  | .reservedD => 0xD
  | .reservedE => 0xE
  | .reservedF => 0xF

/-- R301: each of the 16 values of `OP` names exactly one operation or is reserved. -/
def Op.ofCode (c : BitVec 4) : Op :=
  match c.toNat with
  | 0 => .reserved0
  | 1 => .reset
  | 2 => .readId
  | 3 => .en4b
  | 4 => .writeEnable
  | 5 => .waitBusy
  | 6 => .erase
  | 7 => .program
  | 8 => .read
  | 9 => .verifyErased
  | 10 => .verifyData
  | 11 => .selftest
  | 12 => .reservedC
  | 13 => .reservedD
  | 14 => .reservedE
  | _ => .reservedF

/-- The instruction a host operation code is. -/
def Op.instr : Op → Instr
  | .reserved0 => .reserved0
  | .reset => .reset
  | .readId => .readId
  | .en4b => .en4b
  | .writeEnable => .writeEnable
  | .waitBusy => .waitBusy
  | .erase => .erase
  | .program => .program
  | .read => .read
  | .verifyErased => .verifyErased
  | .verifyData => .verifyData
  | .selftest => .selftest
  | .reservedC => .reservedC
  | .reservedD => .reservedD
  | .reservedE => .reservedE
  | .reservedF => .reservedF

/-- `OP` of a command word: bits [3:0] (R301). -/
def cmdOp (w : Word) : Op := Op.ofCode (w.extractLsb' 0 4)

/-- The Format H decoder: total, and it looks only at `OP` (R301). -/
def decodeCmd (w : Word) : Instr := (cmdOp w).instr

/-! ## Format B (R305 to R310) -/

/-- The instruction byte of a row (R310). -/
def InsBytes.byte (b : InsBytes) : DevName → Byte
  | .rsten => b.rsten
  | .rst => b.rst
  | .rdid => b.rdid
  | .rdsr => b.rdsr
  | .wren => b.wren
  | .en4b => b.en4b
  | .se4 => b.se4
  | .pp4 => b.pp4
  | .read4 => b.read4

/-- The `ADW` column of R310. -/
def DevName.adw : DevName → Bool
  | .rsten => false
  | .rst => false
  | .rdid => false
  | .rdsr => false
  | .wren => false
  | .en4b => false
  | .se4 => true
  | .pp4 => true
  | .read4 => true

/-- The `DIR` column of R310. -/
def DevName.dir : DevName → Dir
  | .rsten => .none
  | .rst => .none
  | .rdid => .read
  | .rdsr => .read
  | .wren => .none
  | .en4b => .none
  | .se4 => .none
  | .pp4 => .write
  | .read4 => .read

/-- `DIR`'s two bits (R306). -/
def Dir.code : Dir → BitVec 2
  | .none => 0b00
  | .read => 0b01
  | .write => 0b10

/-- The formatter `Desc(name, a, n)` of R407. -/
def mkDesc (b : InsBytes) (name : DevName) (a n : Word) : Desc :=
  { instr := b.byte name
    adw := name.adw
    dir := name.dir
    dummy := Config.readDummy
    addr := if name.adw then a else 0
    dlen := match name.dir with
      | .none => 0
      | _ => match name with
        | .rdsr => Config.srLen
        | .rdid => Config.idLen
        | _ => n }

/-- Word 0 of a descriptor (R305): `INSTR` [7:0], `ADW` [8], `DIR` [10:9], `DUMMY` [15:11], zero above. -/
def Desc.word0 (d : Desc) : Word :=
  (0#16 ++ d.dummy ++ d.dir.code ++ BitVec.ofBool d.adw ++ d.instr : BitVec 32)

/-- The three words of a descriptor (R305). -/
def Desc.words (d : Desc) : List Word := [d.word0, d.addr, d.dlen]

/-- The row and operands of a device instruction; `none` for a host operation. -/
def Instr.device : Instr → Option (DevName × Word × Word)
  | .reset => none
  | .readId => none
  | .en4b => none
  | .writeEnable => none
  | .waitBusy => none
  | .erase => none
  | .program => none
  | .read => none
  | .verifyErased => none
  | .verifyData => none
  | .selftest => none
  | .reserved0 => none
  | .reservedC => none
  | .reservedD => none
  | .reservedE => none
  | .reservedF => none
  | .rsten => some (.rsten, 0, 0)
  | .rst => some (.rst, 0, 0)
  | .rdid => some (.rdid, 0, 0)
  | .rdsr => some (.rdsr, 0, 0)
  | .wren => some (.wren, 0, 0)
  | .en4bBus => some (.en4b, 0, 0)
  | .se4 a => some (.se4, a, 0)
  | .pp4 a n => some (.pp4, a, n)
  | .read4 a n => some (.read4, a, n)

/-- The operation of a host instruction; `none` for a device instruction. -/
def Instr.op : Instr → Option Op
  | .reset => some .reset
  | .readId => some .readId
  | .en4b => some .en4b
  | .writeEnable => some .writeEnable
  | .waitBusy => some .waitBusy
  | .erase => some .erase
  | .program => some .program
  | .read => some .read
  | .verifyErased => some .verifyErased
  | .verifyData => some .verifyData
  | .selftest => some .selftest
  | .reserved0 => some .reserved0
  | .reservedC => some .reservedC
  | .reservedD => some .reservedD
  | .reservedE => some .reservedE
  | .reservedF => some .reservedF
  | .rsten => none
  | .rst => none
  | .rdid => none
  | .rdsr => none
  | .wren => none
  | .en4bBus => none
  | .se4 _ => none
  | .pp4 _ _ => none
  | .read4 _ _ => none

/-- The port an instruction comes in by. -/
def Instr.format (i : Instr) : Format := if i.op.isSome then .host else .bus

/-- The device instruction of a row with its operand words. -/
def DevName.instr (name : DevName) (a n : Word) : Instr :=
  match name with
  | .rsten => .rsten
  | .rst => .rst
  | .rdid => .rdid
  | .rdsr => .rdsr
  | .wren => .wren
  | .en4b => .en4bBus
  | .se4 => .se4 a
  | .pp4 => .pp4 a n
  | .read4 => .read4 a n

/-- Why a word list is no instruction. -/
inductive DecodeError where
  /-- R314: Format H is one word and Format B is three. -/
  | wrongLength
  /-- R312: bits [31:16] of descriptor word 0 are never set. -/
  | reservedBits
  /-- R308(c): no descriptor has dummy cycles. -/
  | dummyCycles
  /-- R306: `DIR` = 0b11 is reserved. -/
  | reservedDir
  /-- R311: no row of R310 has this `INSTR`, `ADW` and `DIR`. -/
  | unknownInstruction
  /-- R308(a), (b), R310: the address or length word is not the one the row gives. -/
  | badOperandWord
  deriving DecidableEq, Repr

/-- The rows in the order of R310. -/
def allDevNames : List DevName := [.rsten, .rst, .rdid, .rdsr, .wren, .en4b, .se4, .pp4, .read4]

/-- The row whose `INSTR`, `ADW` and `DIR` word 0 holds (R310). -/
def findRow (b : InsBytes) (w0 : Word) : Option DevName :=
  allDevNames.find? fun name => (mkDesc b name 0 0).word0 == w0

/-- Word 0 and the operand words of a descriptor, read as an instruction: reserved and unknown words are refused by name. -/
def decodeRow (b : InsBytes) (w0 a n : Word) : Except DecodeError Instr :=
  if w0.extractLsb' 16 16 ≠ 0 then .error .reservedBits
  else if w0.extractLsb' 11 5 ≠ 0 then .error .dummyCycles
  else if w0.extractLsb' 9 2 = 0b11 then .error .reservedDir
  else match findRow b w0 with
    | some name => .ok (name.instr a n)
    | none => .error .unknownInstruction

/-- The descriptor of a device instruction. -/
def Instr.desc (b : InsBytes) (i : Instr) : Option Desc :=
  i.device.map fun d => mkDesc b d.1 d.2.1 d.2.2

/-- The Format B decoder: the row of word 0, and operand words that are exactly the row's (R308, R310). -/
def decodeDesc (b : InsBytes) (w0 a n : Word) : Except DecodeError Instr :=
  match decodeRow b w0 a n with
  | .ok i => if (i.desc b).map Desc.words = some [w0, a, n] then .ok i else .error .badOperandWord
  | .error e => .error e

/-- The decoder, for either port: total on any list of words. -/
def decode (b : InsBytes) (f : Format) (ws : List Word) : Except DecodeError Instr :=
  match f, ws with
  | .host, [w] => .ok (decodeCmd w)
  | .bus, [w0, a, n] => decodeDesc b w0 a n
  | _, _ => .error .wrongLength

/-- The encoder: the command word (R301, reserved bits zero) or the descriptor's three words (R305). -/
def encode (b : InsBytes) (i : Instr) : List Word :=
  match i.op, i.desc b with
  | some o, _ => [o.code.setWidth 32]
  | none, some d => d.words
  | none, none => []

/-- The format of a table word: the opcode table numbers the words of both formats as plain 32-bit words, and a word that has bits above `OP` and is some row's default word 0 is read as that descriptor (log 6, DESIGN CHOICE). -/
def tableFormat (w0 : Word) : Format :=
  if w0.extractLsb' 4 28 ≠ 0 ∧ (findRow Config.defaultIns w0).isSome then .bus else .host

/-- The decoder on the words of an opcode-table row: bit 0 is the least significant bit of the first word (log 6). -/
def decodeTableWord (nbits w : Nat) : Option Instr :=
  let v := w % 2 ^ nbits
  let w0 : Word := BitVec.ofNat 32 v
  match tableFormat w0 with
  | .host => some (decodeCmd w0)
  | .bus =>
    match decodeRow Config.defaultIns w0 (BitVec.ofNat 32 (v / 2 ^ 32)) (BitVec.ofNat 32 (v / 2 ^ 64)) with
    | .ok i => some i
    | .error _ => none

end Sys2Proof
end

