-- ==== Sys2Proof/Machine/State.lean ====
section
/-! DEFINITION. The state of the block (10_state.md), its records, the inputs of its ports, the reasons a step can stop, and the state after reset (R150). -/

namespace Sys2Proof.Machine

/-! ## Registers' value types -/

/-- `STATUS.PHASE` (R111, R120). -/
inductive Phase where
  | idle | wePending | weLatched | cmdIssued | deviceBusy
  deriving DecidableEq, Repr

/-- The error codes of R701. -/
inductive Err where
  | ok | busError | busTimeout | timeout | invalidArgument | verifyMismatch
  deriving DecidableEq, Repr

/-- The data buffer: (index, byte) pairs, indexes strictly rising. An unlisted byte is unwritten and reads as nothing (R142). -/
abbrev Memory := List Host.Cell

/-- The canonical form of a memory: indexes strictly rising, so equal buffers are equal lists. -/
def Memory.wf : Memory → Bool
  | [] => true
  | [_] => true
  | c :: d :: m => decide (c.1 < d.1) && Memory.wf (d :: m)

/-! ## The sequencer position (R122, R123) -/

/-- `t0` and `tlast` of R123, held while `PollSR` runs. -/
structure PollTimes where
  t0    : Word
  tlast : Word
  deriving DecidableEq, Repr

/-- The statements of the operation bodies at which an engine step begins (R7, R20).
The transient values of R123 stand where they live: `t0` and `tlast` with the poll loop, `rd` with the compare. -/
inductive Stmt where
  /-- The argument checks (R523). -/
  | check
  /-- RESET's transactions (R530). -/
  | rsten | rst
  /-- READ_ID's transaction (R532). -/
  | rdid
  /-- The WREN transaction of `WE()` (R460). -/
  | wren
  /-- A poll of `PollSR` (R452): none before the loop-entry sample. -/
  | poll (t : Option PollTimes)
  /-- A tick-wait step of `GapWait` (R455). -/
  | gap (t : PollTimes)
  /-- `PHASE <- CMD_ISSUED` (R526). -/
  | issue
  /-- The mutating command's transaction (R526). -/
  | command
  /-- The READ4 transaction (R555, R601). -/
  | read4
  /-- The compare step (R604), with `rd`. -/
  | compare (rd : List Byte)
  /-- `finish(e)` (R522). -/
  | finish (e : Err)
  deriving DecidableEq, Repr

/-- The source's step numbers 1 to 9 (R611). -/
inductive TestStep where
  | one | two | three | four | five | six | seven | eight | nine
  deriving DecidableEq, Repr

/-- SELFTEST's ten sub-operations (R610), each named with its step. -/
inductive Sub where
  | reset1 | readId2 | en4b3 | wait3 | erase4 | wait4 | verifyErased5 | program6 | wait7 | verifyData8
  deriving DecidableEq, Repr

/-- SELFTEST's own statements (R610, R611, R620, R630). -/
inductive Seq where
  /-- `Step(n)`. -/
  | setStep (n : TestStep)
  /-- `ts <- now()` of `Settle()` (R620). -/
  | settleStart
  /-- One sample of `Settle()`'s loop, with `ts` (R123). -/
  | settle (ts : Word)
  /-- `Pass(n, …)`. -/
  | pass (n : TestStep)
  /-- The `emit` of `Fail(n, e, …)`. -/
  | fail (n : TestStep) (e : Err)
  /-- `finish(e)`. -/
  | finish (e : Err)
  deriving DecidableEq, Repr

/-- `pos` (R122): a statement of the operation's own body, of a SELFTEST sub-operation's body (R612), or of SELFTEST itself. -/
inductive Pos where
  | op (m : Stmt)
  | sub (k : Sub) (m : Stmt)
  | seq (q : Seq)
  deriving DecidableEq, Repr

/-- `mstate` (R122). -/
inductive MState where
  | idle
  | run (p : Pos)
  deriving DecidableEq, Repr

/-! ## Records (R124) -/

/-- The three consumed bus calls (R401). -/
inductive BusCall where
  | send | transmit | receive
  deriving DecidableEq, Repr

/-- One consumed call of a transaction: which call, the timeout passed to it (R401) and its outcome. -/
structure CallRecord where
  call    : BusCall
  tmo     : Word
  outcome : BusOutcome
  deriving DecidableEq, Repr

/-- One record of the bus trace `BT` (R410). -/
structure BusRecord where
  desc    : Desc
  wdata   : List Byte
  calls   : List CallRecord
  outcome : BusOutcome
  rdata   : List Byte
  deriving DecidableEq, Repr

/-- One record of the event log `EV` (R631). -/
structure Event where
  step     : TestStep
  op       : Op
  outcome  : Err
  id       : Option (BitVec 24)
  offset   : Option Word
  expected : Option Byte
  observed : Option Byte
  deriving DecidableEq, Repr

/-! ## The ports' inputs -/

/-- The width of a host access (R119, R140). -/
inductive Width where
  | byte | half | word
  deriving DecidableEq, Repr

/-- One host access, by its offset from `BASE` (R101, R315). -/
inductive HostAccess where
  | write (off : BitVec 16) (w : Width) (v : Word)
  | read (off : BitVec 16) (w : Width)
  deriving DecidableEq, Repr

/-- What happens next at the block (R7, R711, R801): a host access, the reset input `rst`, or one engine step.
Host accesses and engine steps interleave one at a time; the list of inputs is the interleaving. -/
inductive Input where
  | host (a : HostAccess)
  | rst
  | engine
  deriving DecidableEq, Repr

/-- The oracle answers that are still to be drawn (R8): transport outcomes, received bytes and tick samples, each in the order it is drawn.
Where a list has run out the draw is a free value of Config, numbered by `next`. -/
structure Draws where
  bus  : List BusOutcome
  rx   : List Byte
  tick : List Word
  next : Nat
  deriving DecidableEq, Repr

/-! ## The state -/

/-- The block's state (10_state.md), its records, and the inputs of its ports. -/
structure State where
  /-- The instance's parameters (R11 to R13); no step changes them. -/
  par      : Params
  /-- `ADDR` (R103). -/
  addr     : Word
  /-- `LEN` (R104). -/
  len      : Word
  /-- `TMO` (R105). -/
  tmo      : Word
  /-- `TMO_SHORT` (R105). -/
  tmoShort : Word
  /-- `STATUS.BUSY` (R107). -/
  busy     : Bool
  /-- `STATUS.DONE` (R108). -/
  done     : Bool
  /-- `STATUS.CMDREJ` (R109). -/
  cmdrej   : Bool
  /-- `STATUS.IDV` (R110). -/
  idv      : Bool
  /-- `STATUS.PHASE` (R111). -/
  phase    : Phase
  /-- `STATUS.ERR` (R112). -/
  err      : Err
  /-- `STATUS.STEP` (R113). -/
  stepNo   : BitVec 4
  /-- `ID[23:0]` (R114). -/
  idBytes  : BitVec 24
  /-- `SR[7:0]` (R115). -/
  sr       : Byte
  /-- `MMOFF` (R116). -/
  mmoff    : Word
  /-- `MMDATA[7:0]`, the expected byte (R117). -/
  mmExp    : Byte
  /-- `MMDATA[15:8]`, the observed byte (R117). -/
  mmObs    : Byte
  /-- `BUF` (R140). -/
  buf      : Memory
  /-- `op_l` (R121), which `CMD` reads back (R102). -/
  opL      : Op
  /-- `addr_l` (R121). -/
  addrL    : Word
  /-- `len_l` (R121). -/
  lenL     : Word
  /-- `tmo_l` (R121). -/
  tmoL     : Word
  /-- `tmos_l` (R121). -/
  tmosL    : Word
  /-- `mstate` and `pos`, with `t0`, `tlast`, `ts` and `rd` (R122, R123). -/
  mstate   : MState
  /-- The bus trace `BT` (R124, R410). -/
  bt       : List BusRecord
  /-- The event log `EV` (R124, R630). -/
  ev       : List Event
  /-- The model's own: what the ports bring next (log 3). -/
  inbox    : List Input
  /-- The model's own: the oracle answers still to be drawn (log 4). -/
  draws    : Draws
  /-- The model's own: the value the latest host read returned (log 5). -/
  hostData : Option Word
  deriving DecidableEq, Repr

/-- Why a step faults. -/
inductive Fault where
  /-- Raised by a host read of BUF, by PP4 and by VERIFY_DATA's compare when a byte they use is unwritten (R142, R706). Safe: the chip would go on with some value. -/
  | unwrittenBuf
  /-- Raised by an operation's body at a position that is not one of its statements (log 8). Safe: no such state is reached (Inv is kept by every step). -/
  | badPosition
  deriving DecidableEq, Repr

/-- Why a step is refused. -/
inductive Refusal where
  /-- An instruction without a meaning: no arm uses it. Safe. -/
  | notModelled (mnemonic : String)
  /-- Raised by a host access to offsets 0x000 to 0x027 that is not an aligned 32-bit one (R119). Safe: the spec gives it no meaning. -/
  | registerAccess
  /-- Raised by a misaligned BUF access, or one that runs past BUF_SIZE (R140). Safe: the spec gives it no meaning. -/
  | bufAccess
  deriving DecidableEq, Repr

/-- The outcome of one step of this machine. -/
abbrev Outcome := Host.Outcome State Fault Refusal

/-- The state after reset (R150), with empty records and no inputs waiting. -/
def State.reset : State :=
  { par := Config.standard
    addr := 0, len := 0, tmo := 0, tmoShort := 0
    busy := false, done := false, cmdrej := false, idv := false
    phase := .idle, err := .ok, stepNo := 0
    idBytes := 0, sr := 0, mmoff := 0, mmExp := 0, mmObs := 0
    buf := []
    opL := .reserved0, addrL := 0, lenL := 0, tmoL := 0, tmosL := 0
    mstate := .idle
    bt := [], ev := []
    inbox := [], draws := { bus := [], rx := [], tick := [], next := 0 }, hostData := none }

end Sys2Proof.Machine
end

