-- ==== Sys2Proof/Machine/Operands.lean ====
section
/-! DEFINITION. Operand assembly: what each operation reads (R303, R612), the argument checks (R210 to R212, R545, R550, R555, R602, R605), and the host register map (R101). -/

namespace Sys2Proof.Machine

/-! ## Positions and operations -/

/-- The step a sub-operation belongs to (R610). -/
def Sub.step : Sub → TestStep
  | .reset1 => .one
  | .readId2 => .two
  | .en4b3 => .three
  | .wait3 => .three
  | .erase4 => .four
  | .wait4 => .four
  | .verifyErased5 => .five
  | .program6 => .six
  | .wait7 => .seven
  | .verifyData8 => .eight

/-- The host operation whose body a sub-operation runs (R612). -/
def Sub.op : Sub → Op
  | .reset1 => .reset
  | .readId2 => .readId
  | .en4b3 => .en4b
  | .wait3 => .waitBusy
  | .erase4 => .erase
  | .wait4 => .waitBusy
  | .verifyErased5 => .verifyErased
  | .program6 => .program
  | .wait7 => .waitBusy
  | .verifyData8 => .verifyData

/-- `S(n)` of R610. -/
def TestStep.op : TestStep → Op
  | .one => .reset
  | .two => .readId
  | .three => .en4b
  | .four => .erase
  | .five => .verifyErased
  | .six => .program
  | .seven => .waitBusy
  | .eight => .verifyData
  | .nine => .selftest

/-- The step number `Step(n)` writes (R611). -/
def TestStep.number : TestStep → BitVec 4
  | .one => 1
  | .two => 2
  | .three => 3
  | .four => 4
  | .five => 5
  | .six => 6
  | .seven => 7
  | .eight => 8
  | .nine => 9

/-- The step after step n. -/
def TestStep.succ : TestStep → Option TestStep
  | .one => some .two
  | .two => some .three
  | .three => some .four
  | .four => some .five
  | .five => some .six
  | .six => some .seven
  | .seven => some .eight
  | .eight => some .nine
  | .nine => none

/-- The operation whose body a position is in. -/
def Pos.opOf (o : Op) : Pos → Op
  | .op _ => o
  | .sub k _ => k.op
  | .seq _ => .selftest

/-- The first statement of an operation's body. SELFTEST has none of these: see `firstPos`. -/
def firstStmt : Op → Stmt
  | .reset => .rsten
  | .readId => .rdid
  | .en4b => .wren
  | .writeEnable => .wren
  | .waitBusy => .poll none
  | .erase => .check
  | .program => .check
  | .read => .check
  | .verifyErased => .check
  | .verifyData => .check
  | .selftest => .finish .invalidArgument
  | .reserved0 => .finish .invalidArgument
  | .reservedC => .finish .invalidArgument
  | .reservedD => .finish .invalidArgument
  | .reservedE => .finish .invalidArgument
  | .reservedF => .finish .invalidArgument

/-- `pos <- first statement of op_l` (R131). -/
def firstPos (o : Op) : Pos :=
  match o with
  | .selftest => .seq (.setStep .one)
  | _ => .op (firstStmt o)

/-- Where SELFTEST goes when a sub-operation returns `e` (R610): the next statement, or the `emit` of `Fail`. -/
def Sub.after (k : Sub) (e : Err) : Pos :=
  match e with
  | .ok =>
    match k with
    | .reset1 => .seq .settleStart
    | .readId2 => .seq (.pass .two)
    | .en4b3 => .sub .wait3 (firstStmt .waitBusy)
    | .wait3 => .seq (.pass .three)
    | .erase4 => .sub .wait4 (firstStmt .waitBusy)
    | .wait4 => .seq (.pass .four)
    | .verifyErased5 => .seq (.pass .five)
    | .program6 => .seq (.pass .six)
    | .wait7 => .seq (.pass .seven)
    | .verifyData8 => .seq (.pass .eight)
  | e => .seq (.fail k.step e)

/-- The first statement of step n, after `Step(n)` (R610). -/
def TestStep.first : TestStep → Pos
  | .one => .sub .reset1 (firstStmt .reset)
  | .two => .sub .readId2 (firstStmt .readId)
  | .three => .sub .en4b3 (firstStmt .en4b)
  | .four => .sub .erase4 (firstStmt .erase)
  | .five => .sub .verifyErased5 (firstStmt .verifyErased)
  | .six => .sub .program6 (firstStmt .program)
  | .seven => .sub .wait7 (firstStmt .waitBusy)
  | .eight => .sub .verifyData8 (firstStmt .verifyData)
  | .nine => .seq (.pass .nine)

/-- A position at another statement of the same body. -/
def Pos.goto (p : Pos) (m : Stmt) : Pos :=
  match p with
  | .op _ => .op m
  | .sub k _ => .sub k m
  | .seq q => .seq q

/-- The position after a body ends with `e`: `finish(e)` for a host operation; for a sub-operation the return of R612, which takes no step. -/
def Pos.leave (p : Pos) (e : Err) : Pos :=
  match p with
  | .op _ => .op (.finish e)
  | .sub k _ => k.after e
  | .seq q => .seq q

/-- The device instruction whose transaction a position is at (R310, "emitted by"). -/
def Pos.issues (o : Op) (p : Pos) : Option DevName :=
  match p with
  | .seq _ => none
  | .op m | .sub _ m =>
    match m with
    | .rsten => some .rsten
    | .rst => some .rst
    | .rdid => some .rdid
    | .wren => some .wren
    | .poll _ => some .rdsr
    | .command =>
      match p.opOf o with
      | .en4b => some .en4b
      | .erase => some .se4
      | .program => some .pp4
      | _ => none
    | .read4 => some .read4
    | _ => none

/-! ## Operands (R303, R612) -/

/-- The operands a body reads: `a`, `n` and `t` of R612, or the latches. -/
structure Args where
  a : Word
  n : Word
  t : Word
  deriving DecidableEq, Repr

/-- The length a sub-operation gets in place of `len_l` (R610). -/
def Sub.len (k : Sub) (s : State) : Word :=
  match k with
  | .erase4 => s.par.subsectorSize
  | .verifyErased5 => s.par.subsectorSize
  | .program6 => s.par.pageSize
  | .verifyData8 => s.par.pageSize
  | _ => s.lenL

/-- The timeout a sub-operation gets in place of `tmo_l` (R610). -/
def Sub.tmo (k : Sub) (s : State) : Word :=
  match k with
  | .wait3 => s.tmosL
  | .wait7 => s.tmosL
  | _ => s.tmoL

/-- The operands at a position. -/
def State.argsAt (s : State) (p : Pos) : Args :=
  match p with
  | .sub k _ => { a := s.addrL, n := k.len s, t := k.tmo s }
  | _ => { a := s.addrL, n := s.lenL, t := s.tmoL }

/-- The operands of the statement the engine is at; the latches when it is idle. -/
def State.args (s : State) : Args :=
  match s.mstate with
  | .run p => s.argsAt p
  | .idle => { a := s.addrL, n := s.lenL, t := s.tmoL }

/-- The position at which the engine waits for device instruction `name`, if it does. -/
def State.awaits (s : State) (name : DevName) : Option Pos :=
  match s.mstate with
  | .run p => if p.issues s.opL = some name then some p else none
  | .idle => none

/-- The device instruction the engine's next step executes, when that step is a transaction. -/
def State.busInstr (s : State) : Option Instr :=
  match s.mstate with
  | .run p => (p.issues s.opL).map fun name => name.instr s.args.a s.args.n
  | .idle => none

/-- The position of a running operation `o`. -/
def State.running (s : State) (o : Op) : Option Pos :=
  match s.mstate with
  | .run p => if s.opL = o then some p else none
  | .idle => none

/-! ## Argument checks: true when every check of the operation passes -/

/-- ERASE (R545, R211). -/
def eraseArgs (p : Params) (a n : Word) : Bool :=
  decide (n = p.subsectorSize) && eraseAligned p a

/-- PROGRAM (R550, R210). -/
def programArgs (p : Params) (a n : Word) : Bool := programRange p a n

/-- READ (R555, R212). -/
def readArgs (p : Params) (a n : Word) : Bool :=
  decide (n.toNat ≤ p.bufSize) && readRange a n

/-- VERIFY_ERASED (R602, R212): no BUF_SIZE limit. -/
def verifyErasedArgs (a n : Word) : Bool := readRange a n

/-- VERIFY_DATA (R605, R212). -/
def verifyDataArgs (p : Params) (a n : Word) : Bool :=
  decide (n.toNat ≤ p.bufSize) && readRange a n

/-- The checks of an operation; an operation without checks passes. -/
def argsOk (o : Op) (p : Params) (a n : Word) : Bool :=
  match o with
  | .erase => eraseArgs p a n
  | .program => programArgs p a n
  | .read => readArgs p a n
  | .verifyErased => verifyErasedArgs a n
  | .verifyData => verifyDataArgs p a n
  | _ => true

/-! ## The host register map (R101) -/

/-- The ten registers of R101. -/
inductive Reg where
  | cmd | addr | len | tmo | tmoShort | status | id | sr | mmoff | mmdata
  deriving DecidableEq, Repr

/-- The offset of a register (R101). -/
def Reg.offset : Reg → BitVec 16
  | .cmd => 0x000
  | .addr => 0x004
  | .len => 0x008
  | .tmo => 0x00C
  | .tmoShort => 0x010
  | .status => 0x014
  | .id => 0x018
  | .sr => 0x01C
  | .mmoff => 0x020
  | .mmdata => 0x024

/-- The register at an offset, if a register begins there (R101). -/
def regAt (off : Nat) : Option Reg :=
  match off with
  | 0x000 => some .cmd
  | 0x004 => some .addr
  | 0x008 => some .len
  | 0x00C => some .tmo
  | 0x010 => some .tmoShort
  | 0x014 => some .status
  | 0x018 => some .id
  | 0x01C => some .sr
  | 0x020 => some .mmoff
  | 0x024 => some .mmdata
  | _ => none

/-- The bytes of an access. -/
def Width.bytes : Width → Nat
  | .byte => 1
  | .half => 2
  | .word => 4

/-- The first offset after the registers (R119). -/
def regEnd : Nat := 0x28

/-- The offset of `BUF[0]` (R101, R140). -/
def bufStart : Nat := 0x100

/-- What an access reaches. -/
inductive Target where
  /-- An aligned 32-bit register access. -/
  | reg (r : Reg)
  /-- An aligned access inside BUF, by its index. -/
  | buf (i : Nat)
  /-- An unmapped offset (R118). -/
  | unmapped
  /-- An access R119 refuses. -/
  | badReg
  /-- An access R140 refuses. -/
  | badBuf
  deriving DecidableEq, Repr

/-- The target of an access (R101, R118, R119, R140). An access that begins at an unmapped offset and runs into BUF is a misaligned BUF access (log 9). -/
def target (p : Params) (off : BitVec 16) (w : Width) : Target :=
  let a := off.toNat
  let e := a + w.bytes
  if a < regEnd then
    match regAt a with
    | some r => if w = .word then .reg r else .badReg
    | none => .badReg
  else if bufStart < e ∧ a < bufStart + p.bufSize then
    if bufStart ≤ a ∧ (a - bufStart) % w.bytes = 0 ∧ e ≤ bufStart + p.bufSize then .buf (a - bufStart)
    else .badBuf
  else .unmapped

/-- The offset of a host address inside the window at `BASE` (R101); none outside it. -/
def windowOffset (p : Params) (address : Nat) : Option (BitVec 16) :=
  if p.base ≤ address ∧ address < p.base + 0x10000 then some (BitVec.ofNat 16 (address - p.base))
  else none

end Sys2Proof.Machine
end

