-- ==== Sys2Proof/Machine/Flags.lean ====
section
/-! DEFINITION. The flags: the packing of STATUS (R106), the other registers' read values (R102 to R117), the status byte's predicates (R145, R451) and the deadline tests (R453, R455, R620, R721). -/

namespace Sys2Proof.Machine

/-- `PHASE`'s code (R111). -/
def Phase.code : Phase → BitVec 3
  | .idle => 0
  | .wePending => 1
  | .weLatched => 2
  | .cmdIssued => 3
  | .deviceBusy => 4

/-- `ERR`'s code (R701). -/
def Err.code : Err → BitVec 4
  | .ok => 0
  | .busError => 1
  | .busTimeout => 2
  | .timeout => 3
  | .invalidArgument => 4
  | .verifyMismatch => 5

/-- The error a failed bus call maps to (R403, R404). -/
def mapOutcome : BusOutcome → Err
  | .ok => .ok
  | .busError => .busError
  | .busTimeout => .busTimeout

/-- `STATUS` as a host read returns it (R106). -/
def State.status (s : State) : Word :=
  (0#16 ++ s.stepNo ++ s.err.code ++ 0#1 ++ s.phase.code ++ BitVec.ofBool s.idv
    ++ BitVec.ofBool s.cmdrej ++ BitVec.ofBool s.done ++ BitVec.ofBool s.busy : BitVec 32)

/-- `MMDATA` (R117): expected in [7:0], observed in [15:8]. -/
def State.mmdata (s : State) : Word := (s.mmObs ++ s.mmExp : BitVec 16).setWidth 32

/-- A register's read value (R102 to R117). -/
def State.readReg (s : State) : Reg → Word
  | .cmd => s.opL.code.setWidth 32
  | .addr => s.addr
  | .len => s.len
  | .tmo => s.tmo
  | .tmoShort => s.tmoShort
  | .status => s.status
  | .id => s.idBytes.setWidth 32
  | .sr => s.sr.setWidth 32
  | .mmoff => s.mmoff
  | .mmdata => s.mmdata

/-- `WEL_SET` (R451). -/
def welSet (p : Params) (b : Byte) : Bool := b.getLsbD p.welBit.val

/-- `WIP_CLEAR` (R451). -/
def wipClear (p : Params) (b : Byte) : Bool := !b.getLsbD p.wipBit.val

/-- `elapsed(t0, t1)` (R721): the difference modulo 2^TICK_BITS. -/
def elapsed (t0 t1 : Word) : Word := t1 - t0

/-- The predicate of the poll loop an operation runs (R460, R470). -/
def pollPred (p : Params) (o : Op) (b : Byte) : Bool :=
  match o with
  | .waitBusy => wipClear p b
  | _ => welSet p b

/-- The deadline of the poll loop an operation runs (R460, R470). -/
def pollTmo (p : Params) (o : Op) (t : Word) : Word :=
  match o with
  | .waitBusy => t
  | _ => p.tWelMs

/-- The deadline is crossed: `elapsed(t0, t) ≥ tmo` (R453). -/
def deadline (t0 t tmo : Word) : Bool := decide (tmo.toNat ≤ (elapsed t0 t).toNat)

/-- `GapWait` ends (R455). -/
def gapOver (p : Params) (c : PollTimes) (t tmo : Word) : Bool :=
  deadline c.tlast t p.pollGapMs || deadline c.t0 t tmo

/-- `Settle()` ends (R620). -/
def settled (p : Params) (ts t : Word) : Bool := deadline ts t p.settleTicks

end Sys2Proof.Machine
end

