-- ==== Sys2Proof/Machine/Ops.lean ====
section
/-! DEFINITION. The operations the instructions share: the buffer, the oracle draws, the transaction primitive (R403), accept and reject (R131, R132), completion (R522, R712: the block's one exception action), the event output and block reset. -/

namespace Sys2Proof.Machine

/-! ## The data buffer -/

/-- Byte `i` of the buffer; none when it is unwritten (R142). -/
def Memory.read (m : Memory) (i : Nat) : Option Byte :=
  match m with
  | [] => none
  | (j, b) :: m => if i = j then some b else Memory.read m i

/-- Writes one byte, keeping the indexes rising. -/
def Memory.write (m : Memory) (i : Nat) (b : Byte) : Memory :=
  match m with
  | [] => [(i, b)]
  | (j, c) :: m =>
    if i < j then (i, b) :: (j, c) :: m
    else if i = j then (i, b) :: m
    else (j, c) :: Memory.write m i b

/-- Writes a list of bytes from index `i` on (R206). -/
def Memory.writeList (m : Memory) (i : Nat) (bs : List Byte) : Memory :=
  match bs with
  | [] => m
  | b :: bs => (m.write i b).writeList (i + 1) bs

/-- `n` bytes from index `i` on; none when one of them is unwritten (R142). -/
def Memory.readList (m : Memory) (i n : Nat) : Option (List Byte) :=
  match n with
  | 0 => some []
  | n + 1 =>
    match m.read i, m.readList (i + 1) n with
    | some b, some bs => some (b :: bs)
    | _, _ => none

/-- The little-endian word of a byte list: the first byte lowest (R140). -/
def packBytes (bs : List Byte) : Word :=
  match bs with
  | [] => 0
  | b :: bs => (packBytes bs <<< 8) ||| b.setWidth 32

/-- The `n` low bytes of a word, lowest first (R140). -/
def unpackBytes (n : Nat) (v : Word) : List Byte :=
  match n with
  | 0 => []
  | n + 1 => v.setWidth 8 :: unpackBytes n (v >>> 8)

/-! ## Oracle draws (R8) -/

/-- The next transport outcome. -/
def Draws.outcome (q : Draws) : BusOutcome :=
  match q.bus with
  | o :: _ => o
  | [] => Config.freeOutcome q.next

/-- After one transport outcome is drawn. -/
def Draws.afterOutcome (q : Draws) : Draws :=
  match q.bus with
  | _ :: r => { q with bus := r }
  | [] => { q with next := q.next + 1 }

/-- The next tick sample: `now()` (R720). -/
def Draws.now (q : Draws) : Word :=
  match q.tick with
  | t :: _ => t
  | [] => Config.freeTick q.next

/-- After one tick sample is drawn. -/
def Draws.afterNow (q : Draws) : Draws :=
  match q.tick with
  | _ :: r => { q with tick := r }
  | [] => { q with next := q.next + 1 }

/-- `n` received bytes: from the list, then free ones. -/
def drawBytes (n : Nat) (rx : List Byte) (next : Nat) : List Byte :=
  match n, rx with
  | 0, _ => []
  | n + 1, b :: rx => b :: drawBytes n rx next
  | n + 1, [] => Config.freeByte next :: drawBytes n [] (next + 1)

/-- The `n` bytes a `receive` returns (R401): exactly `n`. -/
def Draws.bytes (q : Draws) (n : Nat) : List Byte := drawBytes n q.rx q.next

/-- After `n` bytes are received. -/
def Draws.afterBytes (q : Draws) (n : Nat) : Draws :=
  { q with rx := q.rx.drop n, next := q.next + (n - q.rx.length) }

/-! ## The transaction primitive (R403) -/

/-- What `Xact` returns: the bytes of a successful transaction, or an error. -/
inductive XactResult where
  | ok (bytes : List Byte)
  | err (e : Err)
  deriving DecidableEq, Repr

/-- The record of one transaction: `send`, then the data phase of a successful `send` (R403). Every call gets `T_BUS_MS` (R401). -/
def transfer (tmo : Word) (d : Desc) (wdata : List Byte) (q : Draws) : BusRecord :=
  match q.outcome with
  | .ok =>
    match d.dir with
    | .none => { desc := d, wdata := wdata, calls := [⟨.send, tmo, .ok⟩], outcome := .ok, rdata := [] }
    | .write =>
      { desc := d, wdata := wdata
        calls := [⟨.send, tmo, .ok⟩, ⟨.transmit, tmo, q.afterOutcome.outcome⟩]
        outcome := q.afterOutcome.outcome, rdata := [] }
    | .read =>
      { desc := d, wdata := wdata
        calls := [⟨.send, tmo, .ok⟩, ⟨.receive, tmo, q.afterOutcome.outcome⟩]
        outcome := q.afterOutcome.outcome
        rdata := match q.afterOutcome.outcome with
          | .ok => q.afterOutcome.afterOutcome.bytes d.dlen.toNat
          | _ => [] }
  | r => { desc := d, wdata := wdata, calls := [⟨.send, tmo, r⟩], outcome := r, rdata := [] }

/-- The draws a transaction leaves. -/
def transferDraws (d : Desc) (q : Draws) : Draws :=
  match q.outcome with
  | .ok =>
    match d.dir with
    | .none => q.afterOutcome
    | .write => q.afterOutcome.afterOutcome
    | .read =>
      match q.afterOutcome.outcome with
      | .ok => q.afterOutcome.afterOutcome.afterBytes d.dlen.toNat
      | _ => q.afterOutcome.afterOutcome
  | _ => q.afterOutcome

/-- The result a record gives its caller (R403, R404). -/
def BusRecord.result (r : BusRecord) : XactResult :=
  match r.outcome with
  | .ok => .ok r.rdata
  | o => .err (mapOutcome o)

/-- The record `Xact(d, wdata)` appends in state `s`. -/
def State.record (s : State) (d : Desc) (wdata : List Byte) : BusRecord :=
  transfer s.par.tBusMs d wdata s.draws

/-- The state after `Xact(d, wdata)`: `BT` gains the record, and nothing else of the block changes (R403). -/
def State.xact (s : State) (d : Desc) (wdata : List Byte) : State :=
  { s with bt := s.bt ++ [s.record d wdata], draws := transferDraws d s.draws }

/-- `Desc(name, a, n)` with the instance's instruction bytes (R407). -/
def State.desc (s : State) (name : DevName) (a n : Word) : Desc := mkDesc s.par.ins name a n

/-! ## Position moves and ticks -/

/-- Moves to another statement of the body the engine is in. -/
def State.goto (s : State) (p : Pos) (m : Stmt) : State := { s with mstate := .run (p.goto m) }

/-- Ends the body the engine is in with `e` (R522's position, or R612's return). -/
def State.leave (s : State) (p : Pos) (e : Err) : State := { s with mstate := .run (p.leave e) }

/-- Moves SELFTEST to a position. -/
def State.moveTo (s : State) (p : Pos) : State := { s with mstate := .run p }

/-- Takes the tick sample `now()`. -/
def State.afterNow (s : State) : State := { s with draws := s.draws.afterNow }

/-- Writes `PHASE`. -/
def State.setPhase (s : State) (f : Phase) : State := { s with phase := f }

/-! ## Completion, accept and reject -/

/-- `finish(e)` (R522): the block's only exception action and its normal exit (R712). It writes `ERR`, `BUSY`, `DONE` and `mstate` and nothing else. -/
def State.finish (s : State) (e : Err) : State :=
  { s with err := e, busy := false, done := true, mstate := .idle }

/-- Accept (R131): latches the operands and starts the operation. It is also how the host resumes after an error (R714). -/
def State.accept (s : State) (o : Op) : State :=
  let clears : Bool := match o with
    | .verifyErased => true
    | .verifyData => true
    | .selftest => true
    | _ => false
  { s with
    opL := o, addrL := s.addr, lenL := s.len, tmoL := s.tmo, tmosL := s.tmoShort
    busy := true, done := false, err := .ok, cmdrej := false, stepNo := 0
    idv := if o = .readId then false else s.idv
    mmoff := if clears then 0 else s.mmoff
    mmExp := if clears then 0 else s.mmExp
    mmObs := if clears then 0 else s.mmObs
    mstate := .run (firstPos o) }

/-- Reject (R132): only `CMDREJ` changes. -/
def State.reject (s : State) : State := { s with cmdrej := true }

/-- One engine step of host operation `o`: its accept when the block is not busy (R131); while it runs, `engine` at its position (R520); a request made while another operation runs is rejected (R132). -/
def hostOp (o : Op) (engine : Pos → State → Outcome) (s : State) : Outcome :=
  if s.busy = false then .next (s.accept o)
  else match s.running o with
    | some p => engine p s
    | none => .next s.reject

/-- A host operation's own position: `finish` is a step of its own (R20, item 4); every other statement is the body's. -/
def opStep (body : Stmt → State → Outcome) (p : Pos) (s : State) : Outcome :=
  match p with
  | .op (.finish e) => .next (s.finish e)
  | .op m => body m s
  | .sub _ _ => .fault .badPosition
  | .seq _ => .fault .badPosition

/-- A reserved code's body has no statement before `finish` (R525). -/
def reservedBody (_ : Stmt) (_ : State) : Outcome := .fault .badPosition

/-- The argument-check step (R523): it moves on, or ends the operation with `INVALID_ARGUMENT`. SELFTEST's sub-operations run the same checks (R612): with `ERASE_ALIGN_CHECK = false` and a region that runs past the address space, step 5's check 2 of R602 ends it, where R618 names no such check (DEDUCED, log 22). -/
def checkStep (next : Stmt) (s : State) : Outcome :=
  match s.mstate with
  | .run p =>
    if argsOk (p.opOf s.opL) s.par (s.argsAt p).a (s.argsAt p).n then .next (s.goto p next)
    else .next (s.leave p .invalidArgument)
  | .idle => .fault .badPosition

/-- The `PHASE <- CMD_ISSUED` step (R526). -/
def issueStep (s : State) : Outcome :=
  match s.mstate with
  | .run p => .next ((s.setPhase .cmdIssued).goto p .command)
  | .idle => .fault .badPosition

/-! ## Event output and block reset -/

/-- `emit(ev)` (R630). -/
def State.emit (s : State) (e : Event) : State := { s with ev := s.ev ++ [e] }

/-- Block reset (R150, R801): every register, latch and the sequencer, and BUF unwritten. `BT`, `EV`, the parameters, the device, the transport and the clock are not reset. -/
def State.blockReset (s : State) : State :=
  { State.reset with
    par := s.par, bt := s.bt, ev := s.ev, inbox := s.inbox, draws := s.draws, hostData := s.hostData }

end Sys2Proof.Machine
end

