-- ==== Sys2Proof/Machine/HostPort.lean ====
section
/-! DEFINITION. Host accesses (R101 to R119, R130, R140) other than the CMD write that starts an operation. -/

namespace Sys2Proof.Machine

/-- Writes a register (R130): ADDR, LEN, TMO and TMO_SHORT at any time; a read-only register ignores the write; a CMD write that starts nothing is the rejected one (R132). -/
def State.writeReg (s : State) (r : Reg) (v : Word) : State :=
  match r with
  | .cmd => s.reject
  | .addr => { s with addr := v }
  | .len => { s with len := v }
  | .tmo => { s with tmo := v }
  | .tmoShort => { s with tmoShort := v }
  | .status => s
  | .id => s
  | .sr => s
  | .mmoff => s
  | .mmdata => s

/-- Writes bytes of BUF (R140): ignored while `BUSY = 1`. -/
def State.writeBuf (s : State) (i : Nat) (w : Width) (v : Word) : State :=
  if s.busy then s else { s with buf := s.buf.writeList i (unpackBytes w.bytes v) }

/-- Gives the host the value of a read. -/
def State.answer (s : State) (v : Word) : State := { s with hostData := some v }

/-- A host write (R118, R119, R130, R140). -/
def hostWrite (off : BitVec 16) (w : Width) (v : Word) (s : State) : Outcome :=
  match target s.par off w with
  | .reg r => .next (s.writeReg r v)
  | .buf i => .next (s.writeBuf i w v)
  | .unmapped => .next s
  | .badReg => .refused .registerAccess
  | .badBuf => .refused .bufAccess

/-- A host read (R118, R119, R140, R142): no side effect (R216). -/
def hostRead (off : BitVec 16) (w : Width) (s : State) : Outcome :=
  match target s.par off w with
  | .reg r => .next (s.answer (s.readReg r))
  | .buf i =>
    match s.buf.readList i w.bytes with
    | some bs => .next (s.answer (packBytes bs))
    | none => .fault .unwrittenBuf
  | .unmapped => .next (s.answer 0)
  | .badReg => .refused .registerAccess
  | .badBuf => .refused .bufAccess

/-- A host access. -/
def hostAccess (a : HostAccess) (s : State) : Outcome :=
  match a with
  | .write off w v => hostWrite off w v s
  | .read off w => hostRead off w s

/-- The command word of an access that starts an operation: a CMD write while `BUSY = 0` (R131). -/
def State.cmdStart (s : State) (a : HostAccess) : Option Word :=
  match a with
  | .write off w v => if target s.par off w = .reg .cmd ∧ s.busy = false then some v else none
  | .read _ _ => none

/-- The instruction the next step fetches, and the state in which it runs: the command word of a CMD write that is accepted, or the running operation on an engine turn (R7, R131, R520). -/
def State.fetch (s : State) : Option (Instr × State) :=
  match s.inbox with
  | .host a :: q => (s.cmdStart a).map fun v => (decodeCmd v, { s with inbox := q })
  | .rst :: _ => none
  | .engine :: q =>
    match s.mstate with
    | .run _ => some (s.opL.instr, { s with inbox := q })
    | .idle => none
  | [] =>
    match s.mstate with
    | .run _ => some (s.opL.instr, s)
    | .idle => none

/-- A step that fetches no instruction: a host access, block reset, or a step in which the idle engine waits (R122). -/
def State.outside (s : State) : Outcome :=
  match s.inbox with
  | .host a :: q => hostAccess a { s with inbox := q }
  | .rst :: q => .next (State.blockReset { s with inbox := q })
  | .engine :: q => .next { s with inbox := q }
  | [] => .next s

/-- The position at which a device instruction is the engine's next transaction, and the operation that emits it (R310). -/
def busHome (name : DevName) : Op × Stmt :=
  match name with
  | .rsten => (.reset, .rsten)
  | .rst => (.reset, .rst)
  | .rdid => (.readId, .rdid)
  | .rdsr => (.waitBusy, .poll none)
  | .wren => (.writeEnable, .wren)
  | .en4b => (.en4b, .command)
  | .se4 => (.erase, .command)
  | .pp4 => (.program, .command)
  | .read4 => (.read, .read4)

/-- The state in which the next step executes a table row's instruction (log 6): a command word is written to CMD by the host; a device instruction is the transaction the sequencer is at. -/
def State.place (s : State) (w : Word) (i : Instr) : State :=
  match i.device with
  | none => { s with inbox := .host (.write Reg.cmd.offset .word w) :: s.inbox }
  | some (name, a, n) =>
    { s with
      opL := (busHome name).1, addrL := a, lenL := n
      busy := true, done := false, err := .ok
      mstate := .run (.op (busHome name).2)
      inbox := .engine :: s.inbox }

end Sys2Proof.Machine
end

