-- ==== Sys2Proof/Machine/Transaction.lean ====
section
/-! DEFINITION. The nine device instructions (R413 to R421): one transaction each, with the statements that R20 puts in the transaction's step. The statements belong to the position that waits for the transaction; where none does, the step is the transaction alone. -/

namespace Sys2Proof.Machine

/-- RSTEN (R413), and RESET's use of it (R530): RST is next only after `Ok`. -/
def execRsten (s : State) : Outcome :=
  let d := s.desc .rsten 0 0
  .next (match s.awaits .rsten with
    | none => s.xact d []
    | some p =>
      match (s.record d []).result with
      | .ok _ => (s.xact d []).goto p .rst
      | .err e => (s.xact d []).leave p e)

/-- RST (R414), and RESET's use of it (R530): `PHASE <- IDLE` on success only. -/
def execRst (s : State) : Outcome :=
  let d := s.desc .rst 0 0
  .next (match s.awaits .rst with
    | none => s.xact d []
    | some p =>
      match (s.record d []).result with
      | .ok _ => ((s.xact d []).setPhase .idle).leave p .ok
      | .err e => (s.xact d []).leave p e)

/-- `zext_32(b[2] ‖ b[1] ‖ b[0])` of R532, less its zero byte. -/
def packId (b : List Byte) : BitVec 24 := (b.getD 2 0 ++ b.getD 1 0 ++ b.getD 0 0 : BitVec 24)

/-- `STATUS.IDV <- 0` before the RDID transaction of a SELFTEST sub-operation (R612). -/
def State.clearIdv (s : State) (p : Pos) : State :=
  match p with
  | .sub _ _ => { s with idv := false }
  | _ => s

/-- RDID (R415), and READ_ID's use of it (R532). -/
def execRdid (s : State) : Outcome :=
  let d := s.desc .rdid 0 0
  .next (match s.awaits .rdid with
    | none => s.xact d []
    | some p =>
      match (s.record d []).result with
      | .ok b => State.leave { (s.clearIdv p).xact d [] with idBytes := packId b, idv := true } p .ok
      | .err e => ((s.clearIdv p).xact d []).leave p e)

/-- How a poll loop ends with an error: `WE()` returns `PHASE` to `IDLE` (R460), WAIT_BUSY leaves it (R470). -/
def State.pollFail (s : State) (p : Pos) (e : Err) : State :=
  match p.opOf s.opL with
  | .waitBusy => s.leave p e
  | _ => (s.setPhase .idle).leave p e

/-- How a poll loop ends with `Ok`: WAIT_BUSY's `DEVICE_BUSY → IDLE` (R470); `WE()`'s `WE_LATCHED` (R460), after which WRITE_ENABLE ends (R461) and a mutating operation goes on (R526). -/
def State.pollDone (s : State) (p : Pos) : State :=
  match p.opOf s.opL with
  | .waitBusy => (if s.phase = .deviceBusy then s.setPhase .idle else s).leave p .ok
  | .writeEnable => (s.setPhase .weLatched).leave p .ok
  | _ => (s.setPhase .weLatched).goto p .issue

/-- After a poll whose byte does not satisfy the predicate: the deadline with the sample `t` taken after the poll, then the next poll, or the gap when `POLL_GAP_MS` is not 0 (R452, R453, R455). -/
def State.pollAgain (s : State) (p : Pos) (t0 t : Word) : State :=
  if deadline t0 t (pollTmo s.par (p.opOf s.opL) (s.argsAt p).t) then s.pollFail p .timeout
  else if s.par.pollGapMs = 0 then s.goto p (.poll (some { t0 := t0, tlast := t }))
  else s.goto p (.gap { t0 := t0, tlast := t })

/-- A poll of the loop with loop-entry sample `t0` (R452): `SR` records the byte before the predicate is tested (R457); the tick is sampled only when the predicate fails. -/
def State.pollFrom (s : State) (p : Pos) (t0 : Word) : State :=
  let d := s.desc .rdsr 0 0
  let s1 := s.xact d []
  match (s.record d []).result with
  | .err e => s1.pollFail p e
  | .ok b =>
    let s2 := { s1 with sr := b.headD 0 }
    if pollPred s.par (p.opOf s.opL) (b.headD 0) then s2.pollDone p
    else s2.afterNow.pollAgain p t0 s2.draws.now

/-- RDSR (R416), and the poll step of `PollSR` (R452). The first poll's step takes the loop-entry sample. -/
def execRdsr (s : State) : Outcome :=
  .next (match s.mstate with
    | .run (.op (.poll (some c))) => s.pollFrom (.op (.poll (some c))) c.t0
    | .run (.sub k (.poll (some c))) => s.pollFrom (.sub k (.poll (some c))) c.t0
    | .run (.op (.poll none)) => s.afterNow.pollFrom (.op (.poll none)) s.draws.now
    | .run (.sub k (.poll none)) => s.afterNow.pollFrom (.sub k (.poll none)) s.draws.now
    | _ => s.xact (s.desc .rdsr 0 0) [])

/-- WREN (R417), and `WE()`'s use of it (R460): `PHASE <- WE_PENDING` in the same step. -/
def execWren (s : State) : Outcome :=
  let d := s.desc .wren 0 0
  .next (match s.awaits .wren with
    | none => s.xact d []
    | some p =>
      match (s.record d []).result with
      | .ok _ => ((s.setPhase .wePending).xact d []).goto p (.poll none)
      | .err e => ((s.xact d []).setPhase .idle).leave p e)

/-- The end of a mutating command's transaction (R526, step 4). -/
def State.commandDone (s : State) (p : Pos) (r : XactResult) : State :=
  match r with
  | .ok _ => (s.setPhase .deviceBusy).leave p .ok
  | .err e => (s.setPhase .idle).leave p e

/-- EN4B, the device instruction (R418), and the operation EN4B's use of it (R540). -/
def execEn4bBus (s : State) : Outcome :=
  let d := s.desc .en4b 0 0
  .next (match s.awaits .en4b with
    | none => s.xact d []
    | some p => (s.xact d []).commandDone p (s.record d []).result)

/-- SE4 (R419), and ERASE's use of it (R545). -/
def execSe4 (a : Word) (s : State) : Outcome :=
  let d := s.desc .se4 a 0
  .next (match s.awaits .se4 with
    | none => s.xact d []
    | some p => (s.xact d []).commandDone p (s.record d []).result)

/-- PP4 (R420), and PROGRAM's use of it (R550): the data is `BUF[0..n)`, and an unwritten byte in it is a fault (R142). -/
def execPp4 (a n : Word) (s : State) : Outcome :=
  let d := s.desc .pp4 a n
  match s.buf.readList 0 n.toNat with
  | none => .fault .unwrittenBuf
  | some wdata =>
    .next (match s.awaits .pp4 with
      | none => s.xact d wdata
      | some p => (s.xact d wdata).commandDone p (s.record d wdata).result)

/-- What the caller of READ4 does with the bytes: READ writes them to BUF in the same step (R555); a verify operation holds them for its compare step (R601). -/
def State.readDone (s : State) (p : Pos) (b : List Byte) : State :=
  match p.opOf s.opL with
  | .read => State.leave { s with buf := s.buf.writeList 0 b } p .ok
  | _ => s.goto p (.compare b)

/-- READ4 (R421), and its use by READ, VERIFY_ERASED and VERIFY_DATA (R555, R602, R605). -/
def execRead4 (a n : Word) (s : State) : Outcome :=
  let d := s.desc .read4 a n
  .next (match s.awaits .read4 with
    | none => s.xact d []
    | some p =>
      match (s.record d []).result with
      | .ok b => (s.xact d []).readDone p b
      | .err e => (s.xact d []).leave p e)

end Sys2Proof.Machine
end

