-- ==== Sys2Proof/Machine/Polling.lean ====
section
/-! DEFINITION. The write-enable handshake, the inter-poll gap, and the host operations WRITE_ENABLE and WAIT_BUSY (41_polling.md). -/

namespace Sys2Proof.Machine

/-- A tick-wait step of `GapWait` (R455): one sample, and no change but the position. -/
def gapStep (c : PollTimes) (s : State) : Outcome :=
  match s.mstate with
  | .run p =>
    .next (if gapOver s.par c s.draws.now (pollTmo s.par (p.opOf s.opL) (s.argsAt p).t)
      then s.afterNow.goto p (.poll (some c)) else s.afterNow)
  | .idle => .fault .badPosition

/-- `PollSR`'s statements (R452). -/
def pollBody (m : Stmt) (s : State) : Outcome :=
  match m with
  | .poll _ => execRdsr s
  | .gap c => gapStep c s
  | _ => .fault .badPosition

/-- `WE()`'s statements (R460). -/
def weBody (m : Stmt) (s : State) : Outcome :=
  match m with
  | .wren => execWren s
  | m => pollBody m s

/-- WRITE_ENABLE's body (R461). -/
def writeEnableBody (m : Stmt) (s : State) : Outcome := weBody m s

/-- WAIT_BUSY's body (R470). -/
def waitBusyBody (m : Stmt) (s : State) : Outcome := pollBody m s

/-- WRITE_ENABLE (R461). -/
def execWriteEnable (s : State) : Outcome := hostOp .writeEnable (opStep writeEnableBody) s

/-- WAIT_BUSY (R470). -/
def execWaitBusy (s : State) : Outcome := hostOp .waitBusy (opStep waitBusyBody) s

end Sys2Proof.Machine
end

