-- ==== Sys2Proof/Machine/Protocol.lean ====
section
/-! DEFINITION. The protocol operations RESET, READ_ID, EN4B, ERASE, PROGRAM and READ, and the reserved codes (42_protocol_ops.md). -/

namespace Sys2Proof.Machine

/-- RESET's body (R530): RSTEN, then RST. -/
def resetBody (m : Stmt) (s : State) : Outcome :=
  match m with
  | .rsten => execRsten s
  | .rst => execRst s
  | _ => .fault .badPosition

/-- READ_ID's body (R532). -/
def readIdBody (m : Stmt) (s : State) : Outcome :=
  match m with
  | .rdid => execRdid s
  | _ => .fault .badPosition

/-- EN4B's body (R540, R526). -/
def en4bBody (m : Stmt) (s : State) : Outcome :=
  match m with
  | .issue => issueStep s
  | .command => execEn4bBus s
  | m => weBody m s

/-- ERASE's body (R545, R526). -/
def eraseBody (m : Stmt) (s : State) : Outcome :=
  match m with
  | .check => checkStep .wren s
  | .issue => issueStep s
  | .command => execSe4 s.args.a s
  | m => weBody m s

/-- PROGRAM's body (R550, R526). -/
def programBody (m : Stmt) (s : State) : Outcome :=
  match m with
  | .check => checkStep .wren s
  | .issue => issueStep s
  | .command => execPp4 s.args.a s.args.n s
  | m => weBody m s

/-- READ's body (R555). -/
def readBody (m : Stmt) (s : State) : Outcome :=
  match m with
  | .check => checkStep .read4 s
  | .read4 => execRead4 s.args.a s.args.n s
  | _ => .fault .badPosition

/-- RESET (R530). -/
def execReset (s : State) : Outcome := hostOp .reset (opStep resetBody) s

/-- READ_ID (R532). -/
def execReadId (s : State) : Outcome := hostOp .readId (opStep readIdBody) s

/-- EN4B, the host operation (R540). -/
def execEn4b (s : State) : Outcome := hostOp .en4b (opStep en4bBody) s

/-- ERASE (R545). -/
def execErase (s : State) : Outcome := hostOp .erase (opStep eraseBody) s

/-- PROGRAM (R550). -/
def execProgram (s : State) : Outcome := hostOp .program (opStep programBody) s

/-- READ (R555). -/
def execRead (s : State) : Outcome := hostOp .read (opStep readBody) s

/-- Reserved code 0x0 (R525): accepted, and its one step is `finish(INVALID_ARGUMENT)`. -/
def execReserved0 (s : State) : Outcome := hostOp .reserved0 (opStep reservedBody) s

/-- Reserved code 0xC (R525). -/
def execReservedC (s : State) : Outcome := hostOp .reservedC (opStep reservedBody) s

/-- Reserved code 0xD (R525). -/
def execReservedD (s : State) : Outcome := hostOp .reservedD (opStep reservedBody) s

/-- Reserved code 0xE (R525). -/
def execReservedE (s : State) : Outcome := hostOp .reservedE (opStep reservedBody) s

/-- Reserved code 0xF (R525). -/
def execReservedF (s : State) : Outcome := hostOp .reservedF (opStep reservedBody) s

end Sys2Proof.Machine
end

