-- ==== Sys2Proof/Machine/Verify.lean ====
section
/-! DEFINITION. The read-verify operations and the self-test sequence (43_verify_selftest.md). -/

namespace Sys2Proof.Machine

/-- `FirstMismatch` (R604): the least offset at which the received bytes differ from the expected ones, with the expected and the observed byte. `k` is the offset of the lists' first bytes. -/
def firstMismatch (rd expected : List Byte) (k : Nat) : Option (Nat × Byte × Byte) :=
  match rd, expected with
  | y :: rd, x :: expected => if y = x then firstMismatch rd expected (k + 1) else some (k, x, y)
  | _, _ => none

/-- `Mismatch(k, x, y)` (R603). -/
def State.mismatch (s : State) (k : Nat) (x y : Byte) : State :=
  { s with mmoff := BitVec.ofNat 32 k, mmExp := x, mmObs := y }

/-- The compare step (R604): the whole compare and the mismatch record in one step; `finish`, or the return, follows (R20). -/
def State.compareWith (s : State) (p : Pos) (rd expected : List Byte) : State :=
  match firstMismatch rd expected 0 with
  | some (k, x, y) => (s.mismatch k x y).leave p .verifyMismatch
  | none => s.leave p .ok

/-- VERIFY_ERASED's compare step (R602): every expected byte is ERASED_BYTE. -/
def compareErased (rd : List Byte) (s : State) : Outcome :=
  match s.mstate with
  | .run p => .next (s.compareWith p rd (List.replicate (s.argsAt p).n.toNat s.par.erasedByte))
  | .idle => .fault .badPosition

/-- VERIFY_DATA's compare step (R605): the expected bytes are `BUF[0..len)`, all of them read, so an unwritten one is a fault even above the mismatch (R142). -/
def compareData (rd : List Byte) (s : State) : Outcome :=
  match s.mstate with
  | .run p =>
    match s.buf.readList 0 (s.argsAt p).n.toNat with
    | some expected => .next (s.compareWith p rd expected)
    | none => .fault .unwrittenBuf
  | .idle => .fault .badPosition

/-- VERIFY_ERASED's body (R601, R602). -/
def verifyErasedBody (m : Stmt) (s : State) : Outcome :=
  match m with
  | .check => checkStep .read4 s
  | .read4 => execRead4 s.args.a s.args.n s
  | .compare rd => compareErased rd s
  | _ => .fault .badPosition

/-- VERIFY_DATA's body (R601, R605). -/
def verifyDataBody (m : Stmt) (s : State) : Outcome :=
  match m with
  | .check => checkStep .read4 s
  | .read4 => execRead4 s.args.a s.args.n s
  | .compare rd => compareData rd s
  | _ => .fault .badPosition

/-- VERIFY_ERASED (R602). -/
def execVerifyErased (s : State) : Outcome := hostOp .verifyErased (opStep verifyErasedBody) s

/-- VERIFY_DATA (R605). -/
def execVerifyData (s : State) : Outcome := hostOp .verifyData (opStep verifyDataBody) s

/-! ## SELFTEST (R610 to R631) -/

/-- The body a sub-operation runs (R612). -/
def subBody (k : Sub) : Stmt → State → Outcome :=
  match k with
  | .reset1 => resetBody
  | .readId2 => readIdBody
  | .en4b3 => en4bBody
  | .wait3 => waitBusyBody
  | .erase4 => eraseBody
  | .wait4 => waitBusyBody
  | .verifyErased5 => verifyErasedBody
  | .program6 => programBody
  | .wait7 => waitBusyBody
  | .verifyData8 => verifyDataBody

/-- The event of a step that passed (R631): step 2's carries the identity. -/
def passEvent (n : TestStep) (s : State) : Event :=
  { step := n, op := n.op, outcome := .ok
    id := if n = .two then some s.idBytes else none
    offset := none, expected := none, observed := none }

/-- The event of the step that failed (R631): a mismatch carries its three diagnostics. -/
def failEvent (n : TestStep) (e : Err) (s : State) : Event :=
  { step := n, op := n.op, outcome := e, id := none
    offset := if e = .verifyMismatch then some s.mmoff else none
    expected := if e = .verifyMismatch then some s.mmExp else none
    observed := if e = .verifyMismatch then some s.mmObs else none }

/-- Where SELFTEST goes after the pass event of step n (R610). -/
def TestStep.next (n : TestStep) : Pos :=
  match n.succ with
  | some n' => .seq (.setStep n')
  | none => .seq (.finish .ok)

/-- SELFTEST's own statements (R610, R611, R620, R630). -/
def seqStep (q : Seq) (s : State) : State :=
  match q with
  | .setStep n => State.moveTo { s with stepNo := n.number } n.first
  | .settleStart => s.afterNow.moveTo (.seq (.settle s.draws.now))
  | .settle ts =>
    if settled s.par ts s.draws.now then s.afterNow.moveTo (.seq (.pass .one)) else s.afterNow
  | .pass n => (s.emit (passEvent n s)).moveTo n.next
  | .fail n e => (s.emit (failEvent n e s)).moveTo (.seq (.finish e))
  | .finish e => s.finish e

/-- One engine step of SELFTEST (R610). -/
def selftestStep (p : Pos) (s : State) : Outcome :=
  match p with
  | .seq q => .next (seqStep q s)
  | .sub k m => subBody k m s
  | .op _ => .fault .badPosition

/-- SELFTEST (R610). -/
def execSelftest (s : State) : Outcome := hostOp .selftest selftestStep s

end Sys2Proof.Machine
end

