-- ==== Sys2Proof/Machine/Dispatch.lean ====
section
/-! DEFINITION. exec: one arm per constructor of Instr. -/

namespace Sys2Proof.Machine

def exec (i : Instr) (s : State) : Host.Outcome State Fault Refusal :=
  match i with
  | .reset => Sys2Proof.Machine.execReset s
  | .readId => Sys2Proof.Machine.execReadId s
  | .en4b => Sys2Proof.Machine.execEn4b s
  | .writeEnable => Sys2Proof.Machine.execWriteEnable s
  | .waitBusy => Sys2Proof.Machine.execWaitBusy s
  | .erase => Sys2Proof.Machine.execErase s
  | .program => Sys2Proof.Machine.execProgram s
  | .read => Sys2Proof.Machine.execRead s
  | .verifyErased => Sys2Proof.Machine.execVerifyErased s
  | .verifyData => Sys2Proof.Machine.execVerifyData s
  | .selftest => Sys2Proof.Machine.execSelftest s
  | .reserved0 => Sys2Proof.Machine.execReserved0 s
  | .reservedC => Sys2Proof.Machine.execReservedC s
  | .reservedD => Sys2Proof.Machine.execReservedD s
  | .reservedE => Sys2Proof.Machine.execReservedE s
  | .reservedF => Sys2Proof.Machine.execReservedF s
  | .rsten => Sys2Proof.Machine.execRsten s
  | .rst => Sys2Proof.Machine.execRst s
  | .rdid => Sys2Proof.Machine.execRdid s
  | .rdsr => Sys2Proof.Machine.execRdsr s
  | .wren => Sys2Proof.Machine.execWren s
  | .en4bBus => Sys2Proof.Machine.execEn4bBus s
  | .se4 a => Sys2Proof.Machine.execSe4 a s
  | .pp4 a n => Sys2Proof.Machine.execPp4 a n s
  | .read4 a n => Sys2Proof.Machine.execRead4 a n s

end Sys2Proof.Machine
end

