-- ==== Sys2Proof/Machine/Step.lean ====
section
/-! DEFINITION. One step of the machine: the next input of the inbox, or an engine step. -/

namespace Sys2Proof.Machine

/-- One step: the fetched instruction's, or what the port brings (R7). -/
def step (s : State) : Host.Outcome State Fault Refusal :=
  match s.fetch with
  | some (i, s') => exec i s'
  | none => s.outside

/-- The state whose next step executes the instruction of table word `w` (log 6). -/
def State.withFetchWord (s : State) (nbits w : Nat) : State :=
  match decodeTableWord nbits w with
  | some i => s.place (BitVec.ofNat 32 (w % 2 ^ nbits)) i
  | none => s

end Sys2Proof.Machine
end

