-- ==== Sys2Proof/Machine/HostProgram.lean ====
section
/-! DEFINITION. The host-program notation of R315 and the pseudo-instructions of R316: what each line is as a host access. -/

namespace Sys2Proof.Machine

/-- One line of a host program (R315). -/
inductive HostLine where
  | regW (r : Reg) (v : Word)
  | regR (r : Reg)
  | w8 (i : BitVec 16) (v : Byte)
  | w32 (i : BitVec 16) (v : Word)
  | r8 (i : BitVec 16)
  | r32 (i : BitVec 16)
  /-- The host waits by its own clock: no access. -/
  | sleep (n : Nat)
  deriving DecidableEq, Repr

/-- The offset of `BUF[i]` (R315). -/
def bufOffset (i : BitVec 16) : BitVec 16 := BitVec.ofNat 16 bufStart + i

/-- The access a line makes (R315); `SLEEP` makes none. -/
def HostLine.access : HostLine → Option HostAccess
  | .regW r v => some (.write r.offset .word v)
  | .regR r => some (.read r.offset .word)
  | .w8 i v => some (.write (bufOffset i) .byte (v.setWidth 32))
  | .w32 i v => some (.write (bufOffset i) .word v)
  | .r8 i => some (.read (bufOffset i) .byte)
  | .r32 i => some (.read (bufOffset i) .word)
  | .sleep _ => none

/-- `W8 BUF[k], d[k]` for each k (R316). -/
def fillBuf (d : List Byte) (k : Nat) : List HostLine :=
  match d with
  | [] => []
  | b :: d => .w8 (BitVec.ofNat 16 k) b :: fillBuf d (k + 1)

/-- `R8 BUF[k]` for k = 0..n−1 (R316). -/
def dumpBuf (n : Nat) : List HostLine := (List.range n).map fun k => .r8 (BitVec.ofNat 16 k)

/-- The pseudo-instructions of R316. `polls` is how many `R STATUS` reads a `WAITDONE` makes: it depends on the interleaving, so the expansion takes it as an argument. -/
inductive Pseudo where
  | waitDone
  | run (o : Op)
  | reset
  | readIdentity
  | enable32bitAddressing
  | writeEnable
  | waitWhileBusy (t : Word)
  | eraseRegion (start length : Word)
  | programPage (a : Word) (d : List Byte)
  | readRegion (a n : Word)
  | verifyErased (a n : Word)
  | verifyData (a : Word) (d : List Byte)
  | selftest (a ts tl : Word) (p : List Byte)
  deriving DecidableEq, Repr

/-- `WAITDONE`: `R STATUS` repeated. -/
def waitDoneLines (polls : Nat) : List HostLine := List.replicate polls (.regR .status)

/-- `DO <op>` (R316). -/
def doOp (polls : Nat) (o : Op) : List HostLine := .regW .cmd (o.code.setWidth 32) :: waitDoneLines polls

/-- The expansion of a pseudo-instruction (R316). -/
def Pseudo.expand (polls : Nat) : Pseudo → List HostLine
  | .waitDone => waitDoneLines polls
  | .run o => doOp polls o
  | .reset => doOp polls .reset
  | .readIdentity => doOp polls .readId ++ [.regR .id, .regR .status]
  | .enable32bitAddressing => doOp polls .en4b
  | .writeEnable => doOp polls .writeEnable
  | .waitWhileBusy t => .regW .tmo t :: doOp polls .waitBusy
  | .eraseRegion start length => [.regW .addr start, .regW .len length] ++ doOp polls .erase
  | .programPage a d =>
    fillBuf d 0 ++ [.regW .addr a, .regW .len (BitVec.ofNat 32 d.length)] ++ doOp polls .program
  | .readRegion a n => [.regW .addr a, .regW .len n] ++ doOp polls .read ++ dumpBuf n.toNat
  | .verifyErased a n => [.regW .addr a, .regW .len n] ++ doOp polls .verifyErased
  | .verifyData a d =>
    fillBuf d 0 ++ [.regW .addr a, .regW .len (BitVec.ofNat 32 d.length)] ++ doOp polls .verifyData
  | .selftest a ts tl p =>
    fillBuf p 0 ++ [.regW .addr a, .regW .tmoShort ts, .regW .tmo tl] ++ doOp polls .selftest

/-- The inputs of a host program, each access followed by `k` engine steps: one of the interleavings R7 allows. -/
def hostInputs (k : Nat) (p : List HostLine) : List Input :=
  p.flatMap fun l =>
    match l.access with
    | some a => .host a :: List.replicate k .engine
    | none => List.replicate k .engine

end Sys2Proof.Machine
end

