-- ==== Sys2Proof/Machine/Device.lean ====
section
/-! DEFINITION. The named premise DeviceContract (R220 to R229): what a claim about flash contents may assume of the device. No step of the machine uses it. -/

namespace Sys2Proof.Machine

/-! ## The reference device (R220): not block state -/

/-- How far the contract binds the device (R229, R801). -/
inductive Standing where
  /-- Commands are answered per the contract. -/
  | bound
  /-- Within `RESET_SETTLE_MS` after RST: commands have unconstrained effect (R229, R810). -/
  | settling
  /-- Unconstrained until the next RESET and its settle time: after a block reset during an operation (R801), and at power-on (R803; entry I19 of 93_implementation_defined.md). -/
  | lost
  deriving DecidableEq, Repr

/-- The device's reference state (R220). -/
structure Device where
  /-- `Flash` (R220). Inside the span of a cycle that has not completed its bytes are unconstrained (log 17). -/
  flash    : Word → Byte
  /-- WIP (R221, R224). -/
  wip      : Bool
  /-- WEL (R221 to R223). -/
  wel      : Bool
  /-- An EN4B was accepted with WEL = 1 since the last reset (R229). -/
  mode4    : Bool
  /-- RSTEN was the last instruction (R229). -/
  armed    : Bool
  /-- Whether the contract binds the device. -/
  standing : Standing
  /-- The busy cycle is an erase or program cycle (R223). -/
  cycle    : Bool
  /-- The contents once the cycle completes (R225, R226). -/
  goal     : Word → Byte
  /-- The bytes for which a PP4 was accepted since an SE4 cycle last erased them (R816, I9; log 24). -/
  programmed : Word → Bool
  /-- `programmed` once the cycle completes. -/
  goalProgrammed : Word → Bool

/-- `b` lies in the `n` bytes from `a`. -/
abbrev inSpan (a : Word) (n : Nat) (b : Word) : Prop := a.toNat ≤ b.toNat ∧ b.toNat < a.toNat + n

/-- Marks the `n` bytes from `a` with `v`, and leaves every other byte's mark. -/
def markSpan (m : Word → Bool) (a : Word) (n : Nat) (v : Bool) : Word → Bool :=
  fun b => if inSpan a n b then v else m b

/-- DESIGN CHOICE (log 20): the `n` bytes from `a` lie within a capacity of `cap` bytes. R202 leaves the response to an address beyond the capacity unconstrained and gives no capacity, so `cap` is any number and the clauses of R225, R226 and R227 hold of spans within it. -/
def withinCapacity (cap : Nat) (a : Word) (n : Nat) : Prop := a.toNat + n ≤ cap

/-- The device after an instruction that only ends a pending reset-enable. -/
def Device.disarm (d : Device) : Device := { d with armed := false }

/-- A busy cycle completes (R223 to R226): WIP returns to 0, WEL is cleared after an erase or program cycle and kept otherwise (R812), and the contents and the marks are the cycle's. -/
def Device.complete (d : Device) : Device :=
  { d with wip := false, wel := d.wel && !d.cycle, flash := d.goal, cycle := false, programmed := d.goalProgrammed }

/-- `RESET_SETTLE_MS` has passed since RST (R229). -/
def Device.settle (d : Device) : Device :=
  { d with standing := match d.standing with
    | .settling => .bound
    | .bound => .bound
    | .lost => .lost }

/-- RST after RSTEN (R229): `Flash` is unchanged, now and when the device is next idle; the address mode is left, and the settle time begins. R229 leaves WEL unconstrained, and WIP, on which it is silent, is too. The bytes programmed stay so: an erase that the reset cut short has not erased. -/
def Device.afterReset (d d' : Device) : Prop :=
  d'.flash = d.flash ∧ d'.goal = d.flash ∧ d'.programmed = d.programmed ∧ d'.goalProgrammed = d.programmed ∧
    d'.mode4 = false ∧ d'.armed = false ∧ d'.standing = .settling

/-- A write cycle begins (R224): WIP is set, the contents outside the span stay, and those inside become `goal`'s when it completes. `now` and `done` are the programmed bytes while it runs and once it completes. -/
def Device.beginCycle (d : Device) (a : Word) (n : Nat) (goal : Word → Byte) (now done : Word → Bool)
    (d' : Device) : Prop :=
  ∃ f : Word → Byte, (∀ b, ¬ inSpan a n b → f b = d.flash b ∧ goal b = d.flash b) ∧
    d' = { d with
      armed := false, wip := true, cycle := true, flash := f, goal := goal, programmed := now, goalProgrammed := done }

/-- A mutating command (R222): ignored while WEL = 0, `accepted` while WEL = 1. One received during a busy cycle is unconstrained (R811). -/
def Device.mutates (d : Device) (accepted : Prop) (d' : Device) : Prop :=
  d.wip = false → (d.wel = false → d' = d.disarm) ∧ (d.wel = true → accepted)

/-- SE4 accepted with WEL = 1 (R225). Its bytes count as programmed no more once the cycle completes (R816). An unaligned address, one beyond the capacity (R202) and the time before 32-bit address mode (R229, R813) are unconstrained. -/
def Device.erases (p : Params) (cap : Nat) (d : Device) (a : Word) (d' : Device) : Prop :=
  d.mode4 = true → a.toNat % p.subsectorSize.toNat = 0 → withinCapacity cap a p.subsectorSize.toNat →
    ∃ goal, (∀ b, inSpan a p.subsectorSize.toNat b → goal b = p.erasedByte) ∧
      d.beginCycle a p.subsectorSize.toNat goal d.programmed
        (markSpan d.programmed a p.subsectorSize.toNat false) d'

/-- A byte that PP4's contract covers: its value is `ERASED_BYTE` (R226), and no PP4 was accepted for it since its last erase, because a second PP4 of the same bytes is unconstrained whatever the first one wrote (R816, I9; log 24). -/
def Device.erasedAt (p : Params) (d : Device) (b : Word) : Prop :=
  d.flash b = p.erasedByte ∧ d.programmed b = false

/-- PP4 accepted with WEL = 1 (R226). Over bytes that are not all in the erased state, or were programmed before, the span is unconstrained (R816). The marks are set as the cycle begins, so that a cycle a reset cuts short counts too. -/
def Device.programs (p : Params) (cap : Nat) (d : Device) (a n : Word) (wdata : List Byte) (d' : Device) : Prop :=
  d.mode4 = true → programRange p a n = true → withinCapacity cap a n.toNat →
    ∃ goal, ((∀ b, inSpan a n.toNat b → d.erasedAt p b) →
        ∀ k, k < n.toNat → goal (a + BitVec.ofNat 32 k) = wdata.getD k 0) ∧
      d.beginCycle a n.toNat goal (markSpan d.programmed a n.toNat true) (markSpan d.programmed a n.toNat true) d'

/-- READ4 (R227): it leaves the device, and while WIP = 0 returns the contents, byte `k` from address `a + k` (R205). Before 32-bit address mode, or beyond the capacity, bytes and device are unconstrained (R229, R202). -/
def Device.reads (cap : Nat) (d : Device) (a n : Word) (rdata : List Byte) (d' : Device) : Prop :=
  d.mode4 = true → readRange a n = true → withinCapacity cap a n.toNat →
    d' = d.disarm ∧
      (d.wip = false → ∀ k, k < n.toNat → rdata.getD k 0 = d.flash (a + BitVec.ofNat 32 k))

/-- What the contract says of a device it binds, for a transaction of row `name` that returned `Ok` (R221 to R229). The address and length are those of the record's descriptor. -/
def Device.obeys (p : Params) (cap : Nat) (d : Device) (name : DevName) (r : BusRecord) (d' : Device) : Prop :=
  match name with
  | .rsten => d' = { d with armed := true }
  | .rst => d.armed = true → d.afterReset d'
  | .rdid => d' = d.disarm
  | .rdsr => d' = d.disarm ∧
      ∃ b, r.rdata = [b] ∧ b.getLsbD p.wipBit.val = d.wip ∧ b.getLsbD p.welBit.val = d.wel
  | .wren => d.wip = false → d' = { d with armed := false, wel := true }
  -- R812: WEL stays set; R224, C10: WIP is unconstrained
  | .en4b => d.mutates
      (∃ w, d' = { d with
        armed := false, mode4 := true, wip := w, cycle := false, goal := d.flash, goalProgrammed := d.programmed }) d'
  | .se4 => d.mutates (d.erases p cap r.desc.addr d') d'
  | .pp4 => d.mutates (d.programs p cap r.desc.addr r.desc.dlen r.wdata d') d'
  | .read4 => d.reads cap r.desc.addr r.desc.dlen r.rdata d'

/-- What a lost device does with a transaction that returned `Ok` (R801): anything, but RSTEN followed by RST still resets it.
DESIGN CHOICE (log 23): it does so also within the settle time of an RST sent before the block reset, where R229 and R810 leave commands unconstrained and R801 has the next RESET end the lost time. -/
def Device.recovers (d : Device) (name : DevName) (d' : Device) : Prop :=
  match name with
  | .rsten => d'.armed = true ∧ d'.standing = .lost
  | .rst => d.armed = true → d.afterReset d'
  | _ => d'.armed = false ∧ d'.standing = .lost

/-- How the device may answer a transaction of row `name` with record `r`, `d'` being the device afterwards. A transaction that failed (R215), and any within the settle time (R229), leave any device.
DESIGN CHOICE (log 25): any device is one of any standing, `settling` included, so that a RESET after such a transaction is sure to reset the device only once a settle time has passed before it. -/
def Device.answers (p : Params) (cap : Nat) (d : Device) (name : DevName) (r : BusRecord) (d' : Device) : Prop :=
  r.desc = mkDesc p.ins name r.desc.addr r.desc.dlen ∧
  (r.outcome = .ok →
    match d.standing with
    | .bound => d.obeys p cap name r d'
    | .settling => True
    | .lost => d.recovers name d')

/-! ## What a run shows the device -/

/-- One thing that happens to the device.
DESIGN CHOICE (log 21): a transaction carries its row, because the contract is stated per row (R311) and a `BT` record holds the descriptor's three words only (R410). -/
inductive DeviceEvent where
  /-- A transaction of a row, with its record. -/
  | xact (name : DevName) (r : BusRecord)
  /-- `RESET_SETTLE_MS` has passed since RST (R229, R810). -/
  | settled
  /-- A block reset that fell during an operation (R801). It leaves the device `lost`, whether or not a settle time was running (log 23). -/
  | blockReset
  deriving DecidableEq, Repr

/-- What the step from `s` to `t` shows the device: a block reset during an operation (R801); the record it appended, of the row its position emits (R310); and, at a sample of `Settle()`, that more than `RESET_SETTLE_MS` has passed, which `TickContract` says of two samples more than `RESET_SETTLE_MS` ticks apart (R620). -/
def State.deviceEvents (s t : State) : List DeviceEvent :=
  match s.inbox with
  | .rst :: _ => if s.busy then [.blockReset] else []
  | .host _ :: _ => []
  | _ =>
    match s.mstate with
    | .idle => []
    | .run (.seq (.settle ts)) =>
      if Config.resetSettleMs < (elapsed ts s.draws.now).toNat then [.settled] else []
    | .run p =>
      match p.issues s.opL with
      | some name => (t.bt.drop s.bt.length).map (.xact name)
      | none => []

/-- What the next `k` steps show the device. A host that waits out the settle time itself is a claim's own `.settled` between two such lists (log 17). -/
def State.runEvents (k : Nat) (s : State) : List DeviceEvent :=
  match k with
  | 0 => []
  | k + 1 =>
    match step s with
    | .next t => s.deviceEvents t ++ t.runEvents k
    | .fault _ => []
    | .refused _ => []

/-- `DeviceContract` (R220 to R229): a device of capacity `cap` that starts at `d` and ends at `e` may answer these events so. A busy cycle may complete between two of them (R224 gives no bound). -/
inductive DeviceContract (p : Params) (cap : Nat) : Device → List DeviceEvent → Device → Prop where
  | done (d : Device) : DeviceContract p cap d [] d
  | complete (d e : Device) (evs : List DeviceEvent) (busy : d.wip = true)
      (h : DeviceContract p cap d.complete evs e) : DeviceContract p cap d evs e
  | xact (d d1 e : Device) (name : DevName) (r : BusRecord) (evs : List DeviceEvent)
      (ha : d.answers p cap name r d1) (h : DeviceContract p cap d1 evs e) :
      DeviceContract p cap d (.xact name r :: evs) e
  | settled (d e : Device) (evs : List DeviceEvent)
      (h : DeviceContract p cap d.settle evs e) : DeviceContract p cap d (.settled :: evs) e
  | blockReset (d d1 e : Device) (evs : List DeviceEvent) (lost : d1.standing = .lost)
      (h : DeviceContract p cap d1 evs e) : DeviceContract p cap d (.blockReset :: evs) e

end Sys2Proof.Machine
end

