-- ==== Sys2Proof/Safety.lean ====
section
/-! DEFINITION. The terms claims are stated in: the raising matrix (R703), the invariant of a run, the PHASE table (R120), repeated execution, and the named premise TickContract (R720). The other named premise, DeviceContract, stands in Machine/Device.lean. -/

namespace Sys2Proof.Machine

/-! ## The raising matrix (R703) -/

/-- Whether a host operation can end with a code (R703). -/
def mayRaise (o : Op) (e : Err) : Bool :=
  match o with
  | .reset | .readId =>
    match e with
    | .ok | .busError | .busTimeout => true
    | _ => false
  | .en4b | .writeEnable | .waitBusy =>
    match e with
    | .ok | .busError | .busTimeout | .timeout => true
    | _ => false
  | .erase | .program =>
    match e with
    | .verifyMismatch => false
    | _ => true
  | .read =>
    match e with
    | .ok | .busError | .busTimeout | .invalidArgument => true
    | _ => false
  | .verifyErased | .verifyData =>
    match e with
    | .timeout => false
    | _ => true
  | .selftest => true
  | .reserved0 | .reservedC | .reservedD | .reservedE | .reservedF =>
    match e with
    | .invalidArgument => true
    | _ => false

/-! ## Legal positions -/

/-- The statements of an operation's body (`finish` apart). -/
def bodyStmt (o : Op) (m : Stmt) : Bool :=
  match o with
  | .reset =>
    match m with
    | .rsten | .rst => true
    | _ => false
  | .readId =>
    match m with
    | .rdid => true
    | _ => false
  | .en4b =>
    match m with
    | .wren | .poll _ | .gap _ | .issue | .command => true
    | _ => false
  | .writeEnable =>
    match m with
    | .wren | .poll _ | .gap _ => true
    | _ => false
  | .waitBusy =>
    match m with
    | .poll _ | .gap _ => true
    | _ => false
  | .erase | .program =>
    match m with
    | .check | .wren | .poll _ | .gap _ | .issue | .command => true
    | _ => false
  | .read =>
    match m with
    | .check | .read4 => true
    | _ => false
  | .verifyErased | .verifyData =>
    match m with
    | .check | .read4 | .compare _ => true
    | _ => false
  | .selftest | .reserved0 | .reservedC | .reservedD | .reservedE | .reservedF => false

/-- The positions a run of operation `o` can be at. -/
def Pos.legal (o : Op) : Pos → Bool
  | .op (.finish e) => o != .selftest && mayRaise o e
  | .op m => bodyStmt o m
  | .sub k m => o == .selftest && bodyStmt k.op m
  | .seq (.fail _ e) => o == .selftest && e != .ok
  | .seq _ => o == .selftest

/-- The `PHASE` a position implies (R120, R460, R526), where it implies one. -/
def phaseAt (o : Op) (p : Pos) : Option Phase :=
  match p with
  | .seq _ => none
  | .op m | .sub _ m =>
    match m with
    | .issue => some .weLatched
    | .command => some .cmdIssued
    | .poll _ | .gap _ =>
      match p.opOf o with
      | .waitBusy => none
      | _ => some .wePending
    | _ => none

/-- The `STATUS.STEP` a position implies (R113, R611), where it implies one. -/
def stepAt : Pos → Option (BitVec 4)
  | .op _ => some 0
  | .sub k _ => some k.step.number
  | .seq (.setStep n) => some (n.number - 1)
  | .seq .settleStart => some 1
  | .seq (.settle _) => some 1
  | .seq (.pass n) => some n.number
  | .seq (.fail n _) => some n.number
  | .seq (.finish _) => none

/-- Whether a statement comes after its body's argument checks. -/
def Stmt.checked : Stmt → Bool
  | .check => false
  | .finish _ => false
  | _ => true

/-- What a running operation's position says of the state. -/
structure RunInv (s : State) (p : Pos) : Prop where
  /-- The position is a statement of the running operation (R122). -/
  legal : p.legal s.opL = true
  /-- `PHASE` is the one the position implies (R120). -/
  phase : ∀ f, phaseAt s.opL p = some f → s.phase = f
  /-- `STEP` is the one the position implies (R113). -/
  stepNo : ∀ n, stepAt p = some n → s.stepNo = n
  /-- `STEP` is at most 9 (R312). -/
  stepLe : s.stepNo ≤ 9
  /-- After the checks, the arguments are legal (R523). -/
  args : ∀ m, (p = .op m ∨ ∃ k, p = .sub k m) → m.checked = true →
    argsOk (p.opOf s.opL) s.par (s.argsAt p).a (s.argsAt p).n = true
  /-- `rd` holds the whole span (R601). -/
  span : ∀ rd, (p = .op (.compare rd) ∨ ∃ k, p = .sub k (.compare rd)) → rd.length = (s.argsAt p).n.toNat

/-- A well-formed transaction record (R308, R311, R403, R406, R410). -/
structure RecordOk (p : Params) (r : BusRecord) : Prop where
  /-- The descriptor is a row of R310. -/
  row : ∃ name a n, r.desc = mkDesc p.ins name a n
  /-- The descriptor invariants of R308. -/
  desc : r.desc.wf = true
  /-- R406: `DLEN` bytes of write data, and none for the other directions. -/
  wdata : r.wdata.length = if r.desc.dir = .write then r.desc.dlen.toNat else 0
  /-- R410: `DLEN` bytes received on `Ok`, and none otherwise. -/
  rdata : r.rdata.length = if r.desc.dir = .read ∧ r.outcome = .ok then r.desc.dlen.toNat else 0

/-- The invariant: what holds of every state a run reaches. -/
structure Inv (s : State) : Prop where
  /-- R14. -/
  par : s.par.wf = true
  /-- R107, R122: the engine runs exactly while `BUSY = 1`. -/
  busyRun : s.busy = true ↔ s.mstate ≠ .idle
  /-- R106: (`BUSY`, `DONE`) = (1, 1) never occurs. -/
  exclusive : ¬ (s.busy = true ∧ s.done = true)
  /-- R112: while `BUSY = 1`, and before any operation has ended, `ERR` reads 0. -/
  errOk : s.done = false → s.err = .ok
  /-- R703: an ended operation's code is one it can end with. -/
  raised : s.done = true → mayRaise s.opL s.err = true
  /-- The buffer is in canonical form. -/
  bufWf : s.buf.wf = true
  /-- R140: BUF has `BUF_SIZE` bytes. -/
  bufRange : ∀ c ∈ s.buf, c.1 < s.par.bufSize
  /-- R113, R312: `STEP` when no operation runs. -/
  stepIdle : s.mstate = .idle → s.stepNo ≤ 9 ∧ (s.opL ≠ .selftest → s.stepNo = 0)
  /-- A running operation. -/
  run : ∀ p, s.mstate = .run p → RunInv s p
  /-- Every record of the bus trace is well formed. -/
  trace : ∀ r ∈ s.bt, RecordOk s.par r

/-! ## Whole-machine terms -/

/-- Whether the next step is an engine step, and so not a host access or block reset (R7). -/
def State.engineTurn (s : State) : Bool :=
  match s.inbox with
  | [] => true
  | .engine :: _ => true
  | _ => false

/-- The position of the engine step that comes next, if one does. -/
def State.engineAt (s : State) : Option Pos :=
  if s.engineTurn then
    match s.mstate with
    | .run p => some p
    | .idle => none
  else none

/-- The loop-entry sample of a poll (R452): the first poll's step takes it. -/
def State.loopEntry (s : State) (c : Option PollTimes) : Word :=
  match c with
  | some c => c.t0
  | none => s.draws.now

/-- The sample a poll's step takes after its transaction, when the predicate fails (R453). -/
def State.pollSample (s : State) (c : Option PollTimes) : Word :=
  (transferDraws (s.desc .rdsr 0 0)
    (match c with
      | some _ => s.draws
      | none => s.draws.afterNow)).now

/-- The rows of R120's table: from, event, to. `p` is the position of the engine step. -/
inductive PhaseRow (s s' : State) : Prop where
  /-- `WE()` begins; the failing WREN returns to IDLE in the same step (R460). -/
  | weBegins (p : Pos) (r : BusRecord) (h : s.engineAt = some p) (hp : p.issues s.opL = some .wren)
      (hr : s'.bt = s.bt ++ [r])
      (dst : s'.phase = if r.outcome = .ok then .wePending else .idle)
  /-- WEL observed, or the handshake poll ends `Err` (R460): its transaction failed, or its byte does not show WEL and the deadline was reached (R453). -/
  | handshake (p : Pos) (c : Option PollTimes) (r : BusRecord) (h : s.engineAt = some p)
      (hp : p = .op (.poll c) ∨ ∃ k, p = .sub k (.poll c))
      (ho : p.opOf s.opL ≠ .waitBusy) (src : s.phase = .wePending) (hr : s'.bt = s.bt ++ [r])
      (dst : (s'.phase = .weLatched ∧ r.outcome = .ok ∧ r.rdata = [s'.sr] ∧
          s'.sr.getLsbD s.par.welBit.val = true) ∨
        (s'.phase = .idle ∧ (r.outcome ≠ .ok ∨
          (r.outcome = .ok ∧ r.rdata = [s'.sr] ∧ s'.sr.getLsbD s.par.welBit.val = false ∧
            s.par.tWelMs.toNat ≤ (elapsed (s.loopEntry c) (s.pollSample c)).toNat))))
  /-- The `PHASE <- CMD_ISSUED` step (R526). -/
  | issued (p : Pos) (h : s.engineAt = some p) (hp : p = .op .issue ∨ ∃ k, p = .sub k .issue)
      (src : s.phase = .weLatched) (dst : s'.phase = .cmdIssued)
  /-- The mutating command's transaction (R526): DEVICE_BUSY on `Ok`, IDLE on `Err`. -/
  | command (p : Pos) (r : BusRecord) (h : s.engineAt = some p) (hp : p = .op .command ∨ ∃ k, p = .sub k .command)
      (src : s.phase = .cmdIssued) (hr : s'.bt = s.bt ++ [r])
      (dst : s'.phase = if r.outcome = .ok then .deviceBusy else .idle)
  /-- WAIT_BUSY observes WIP = 0 (R470). -/
  | waited (p : Pos) (r : BusRecord) (h : s.engineAt = some p) (hp : p.issues s.opL = some .rdsr)
      (ho : p.opOf s.opL = .waitBusy) (src : s.phase = .deviceBusy) (hr : s'.bt = s.bt ++ [r])
      (ok : r.outcome = .ok) (rd : r.rdata = [s'.sr]) (wip : s'.sr.getLsbD s.par.wipBit.val = false) (dst : s'.phase = .idle)
  /-- RESET's RST transaction returned `Ok` (R530). -/
  | reset (p : Pos) (r : BusRecord) (h : s.engineAt = some p) (hp : p.issues s.opL = some .rst)
      (hr : s'.bt = s.bt ++ [r]) (ok : r.outcome = .ok) (dst : s'.phase = .idle)
  /-- Block reset (R150). -/
  | blockReset (q : List Input) (h : s.inbox = .rst :: q) (dst : s'.phase = .idle)

/-- The engine is at position `p`, running operation `o`. -/
def State.runs (s : State) (o : Op) (p : Pos) : Prop := s.busy = true ∧ s.opL = o ∧ s.mstate = .run p

/-- The engine is at statement `m` of the body of `x`, at position `p`: as host operation `x`, or as a sub-operation of SELFTEST (R612). -/
def State.inBody (s : State) (x : Op) (m : Stmt) (p : Pos) : Prop :=
  s.busy = true ∧ s.mstate = .run p ∧
    ((p = .op m ∧ s.opL = x) ∨ ∃ k : Sub, p = .sub k m ∧ k.op = x ∧ s.opL = .selftest)

/-- One engine step that is a transaction with descriptor `d`, and nothing else: `BT` gains the record, the draws advance (R403). -/
def State.afterBus (s : State) (d : Desc) (wdata : List Byte) : State :=
  { s with bt := s.bt ++ [transfer s.par.tBusMs d wdata s.draws], draws := transferDraws d s.draws }

/-- `k` engine steps of one instruction, stopping at a fault or refusal. -/
def execTimes (k : Nat) (i : Instr) (s : State) : Outcome :=
  match k with
  | 0 => .next s
  | k + 1 =>
    match exec i s with
    | .next t => execTimes k i t
    | .fault f => .fault f
    | .refused r => .refused r

/-- The seventeen descriptors of the source's end-to-end scenario, in order (R610, example). -/
def selftestDescs (p : Params) (a : Word) : List Desc :=
  [mkDesc p.ins .rsten 0 0, mkDesc p.ins .rst 0 0, mkDesc p.ins .rdid 0 0,
   mkDesc p.ins .wren 0 0, mkDesc p.ins .rdsr 0 0, mkDesc p.ins .en4b 0 0, mkDesc p.ins .rdsr 0 0,
   mkDesc p.ins .wren 0 0, mkDesc p.ins .rdsr 0 0, mkDesc p.ins .se4 a 0, mkDesc p.ins .rdsr 0 0,
   mkDesc p.ins .read4 a p.subsectorSize,
   mkDesc p.ins .wren 0 0, mkDesc p.ins .rdsr 0 0, mkDesc p.ins .pp4 a p.pageSize, mkDesc p.ins .rdsr 0 0,
   mkDesc p.ins .read4 a p.pageSize]

/-- The nine events of the source's end-to-end scenario (R610, example): step, `S(step)`, outcome. -/
def selftestEvents : List (TestStep × Op × Err) :=
  [(.one, .reset, .ok), (.two, .readId, .ok), (.three, .en4b, .ok), (.four, .erase, .ok),
   (.five, .verifyErased, .ok), (.six, .program, .ok), (.seven, .waitBusy, .ok), (.eight, .verifyData, .ok),
   (.nine, .selftest, .ok)]

/-! ## TickContract (R720): a premise of claims about real time, not a constraint on the draws -/

/-- Two samples one loop compares are the low 32 bits of a monotonic millisecond count, less than 2^32 ms apart. -/
def TickContract (m0 m1 : Nat) (t0 t1 : Word) : Prop :=
  m0 ≤ m1 ∧ m1 - m0 < 2 ^ Config.tickBits ∧ t0 = BitVec.ofNat 32 m0 ∧ t1 = BitVec.ofNat 32 m1

end Sys2Proof.Machine
end

