-- ==== Sys2Proof/Certificates/Slice0/Obligations.lean ====
section
/-! DEFINITION. The statements for the provers. -/

open Sys2Proof Sys2Proof.Machine

/-! ## Encoding -/

/-- O1. Decoding an encoded instruction gives it back, with every operand, for every instruction and every assignment of instruction bytes that tells the rows of R310 apart (R301, R305, R310). -/
def Obligations.DecodeEncodeRoundTrip : Prop :=
  ∀ (b : InsBytes) (i : Instr), b.distinct = true → decode b i.format (encode b i) = .ok i

/-- O2. A descriptor that decodes is exactly the one its instruction encodes to: reserved bits, the reserved `DIR`, dummy cycles, unknown bytes and operand words a row does not use are all refused (R308, R311, R312). -/
def Obligations.DecodedDescriptorIsExact : Prop :=
  ∀ (b : InsBytes) (ws : List Word) (i : Instr), decode b .bus ws = .ok i →
    encode b i = ws ∧ ∃ d, i.desc b = some d ∧ d.words = ws ∧ (d.word0).extractLsb' 16 16 = 0 ∧
      (d.word0).extractLsb' 9 2 ≠ 0b11 ∧ d.dummy = 0

/-- O3. R301: every 32-bit value is a valid command word; decoding looks only at `OP`, each value of `OP` names exactly one operation, and the bits above it are ignored on write and read as 0. -/
def Obligations.CommandWordDecodesByOp : Prop :=
  (∀ w v : Word, decodeCmd w = decodeCmd v ↔ w.extractLsb' 0 4 = v.extractLsb' 0 4) ∧
  (∀ (b : InsBytes) (w : Word), decode b .host [w] = .ok (decodeCmd w) ∧
    encode b (decodeCmd w) = [w &&& 0xF]) ∧
  (∀ s : State, (s.readReg .cmd).extractLsb' 4 28 = 0)

/-- O4. Words written out from R302 and R310 (default bytes) decode to what they stand for, and reserved forms are refused by name. -/
def Obligations.WrittenWordsDecode : Prop :=
  decodeCmd 0x00000001 = .reset ∧ decodeCmd 0x00000002 = .readId ∧ decodeCmd 0x00000003 = .en4b ∧
  decodeCmd 0x00000004 = .writeEnable ∧ decodeCmd 0x00000005 = .waitBusy ∧ decodeCmd 0x00000006 = .erase ∧
  decodeCmd 0x00000007 = .program ∧ decodeCmd 0xFFFFFFF8 = .read ∧ decodeCmd 0x00000009 = .verifyErased ∧
  decodeCmd 0x0000000A = .verifyData ∧ decodeCmd 0x0000000B = .selftest ∧ decodeCmd 0x00000000 = .reserved0 ∧
  decodeCmd 0x0000000F = .reservedF ∧
  decode Config.defaultIns .bus [0x00000066, 0, 0] = .ok .rsten ∧
  decode Config.defaultIns .bus [0x0000029F, 0, 3] = .ok .rdid ∧
  decode Config.defaultIns .bus [0x00000121, 0x00001000, 0] = .ok (.se4 0x00001000) ∧
  decode Config.defaultIns .bus [0x00000512, 0x00001000, 0x100] = .ok (.pp4 0x00001000 0x100) ∧
  decode Config.defaultIns .bus [0x00000313, 0x00001000, 0x1000] = .ok (.read4 0x00001000 0x1000) ∧
  decode Config.defaultIns .bus [0x00000713, 0, 1] = .error .reservedDir ∧
  decode Config.defaultIns .bus [0x00010066, 0, 0] = .error .reservedBits ∧
  decode Config.defaultIns .bus [0x00000866, 0, 0] = .error .dummyCycles

/-- O5. R305, R306, R307: the descriptor's word 0 holds `INSTR` in [7:0], `ADW` in [8], `DIR` (0b00 none, 0b01 read, 0b10 write, never 0b11) in [10:9], `DUMMY` in [15:11] and zero above; word 1 is `ADDR` and word 2 `DLEN`. -/
def Obligations.DescriptorLayout : Prop :=
  ∀ d : Desc, d.words = [d.word0, d.addr, d.dlen] ∧
    d.word0.extractLsb' 0 8 = d.instr ∧ d.word0.getLsbD 8 = d.adw ∧
    (d.dir = .none ↔ d.word0.extractLsb' 9 2 = 0b00) ∧ (d.dir = .read ↔ d.word0.extractLsb' 9 2 = 0b01) ∧
    (d.dir = .write ↔ d.word0.extractLsb' 9 2 = 0b10) ∧ d.word0.extractLsb' 9 2 ≠ 0b11 ∧
    d.word0.extractLsb' 11 5 = d.dummy ∧ d.word0.extractLsb' 16 16 = 0

/-! ## Reset and the host registers -/

/-- O6. R150: block reset, from any state, sets every register, latch, flag and the sequencer to the value listed, leaves BUF unwritten, leaves BT and EV unchanged, and issues no transaction; a second block reset then changes nothing (R803). -/
def Obligations.BlockResetState : Prop :=
  ∀ (s : State) (q : List Input), s.inbox = .rst :: q →
    ∃ t, step s = .next t ∧
      t.readReg .cmd = 0 ∧ t.addr = 0 ∧ t.len = 0 ∧ t.tmo = 0 ∧ t.tmoShort = 0 ∧ t.status = 0 ∧
      t.busy = false ∧ t.done = false ∧ t.cmdrej = false ∧ t.idv = false ∧ t.phase = .idle ∧ t.err = .ok ∧
      t.stepNo = 0 ∧ t.readReg .id = 0 ∧ t.readReg .sr = 0 ∧ t.mmoff = 0 ∧ t.mmdata = 0 ∧
      t.addrL = 0 ∧ t.lenL = 0 ∧ t.tmoL = 0 ∧ t.tmosL = 0 ∧ t.mstate = .idle ∧
      (∀ i, t.buf.read i = none) ∧ t.bt = s.bt ∧ t.ev = s.ev ∧ t.draws = s.draws ∧ t.inbox = q ∧
      t.par = s.par ∧ t.blockReset = t

/-- O7. R106, R111, R701: the fields of STATUS with the codes of PHASE and ERR, a write to it ignored, and (BUSY, DONE) never (1, 1) in a state that meets the invariant. -/
def Obligations.StatusFields : Prop :=
  (∀ s : State, s.status.getLsbD 0 = s.busy ∧ s.status.getLsbD 1 = s.done ∧ s.status.getLsbD 2 = s.cmdrej ∧
    s.status.getLsbD 3 = s.idv ∧
    s.status.extractLsb' 4 3 = (match s.phase with
      | .idle => 0 | .wePending => 1 | .weLatched => 2 | .cmdIssued => 3 | .deviceBusy => 4) ∧
    s.status.getLsbD 7 = false ∧
    s.status.extractLsb' 8 4 = (match s.err with
      | .ok => 0 | .busError => 1 | .busTimeout => 2 | .timeout => 3 | .invalidArgument => 4
      | .verifyMismatch => 5) ∧
    s.status.extractLsb' 12 4 = s.stepNo ∧ s.status.extractLsb' 16 16 = 0) ∧
  (∀ (s : State) (v : Word), hostAccess (.write 0x014 .word v) s = .next s) ∧
  (∀ s : State, Inv s → (s.status.getLsbD 0 && s.status.getLsbD 1) = false)

/-- O8. R101 to R106, R114 to R117, R216: a 32-bit read of a register's offset gives the host its value, and changes nothing but the answer; the offsets are those of the table, and the values are those of the ten registers, CMD's being the code (R302) of the last accepted operation. -/
def Obligations.HostReadsRegisters : Prop :=
  ∀ (s : State) (q : List Input) (r : Reg), s.inbox = .host (.read r.offset .word) :: q →
    step s = .next { s with inbox := q, hostData := some (s.readReg r) } ∧
    r.offset = (match r with
      | .cmd => 0x000 | .addr => 0x004 | .len => 0x008 | .tmo => 0x00C | .tmoShort => 0x010
      | .status => 0x014 | .id => 0x018 | .sr => 0x01C | .mmoff => 0x020 | .mmdata => 0x024) ∧
    s.readReg .cmd = (match s.opL with
      | .reserved0 => 0x0 | .reset => 0x1 | .readId => 0x2 | .en4b => 0x3 | .writeEnable => 0x4
      | .waitBusy => 0x5 | .erase => 0x6 | .program => 0x7 | .read => 0x8 | .verifyErased => 0x9
      | .verifyData => 0xA | .selftest => 0xB | .reservedC => 0xC | .reservedD => 0xD | .reservedE => 0xE
      | .reservedF => 0xF) ∧
    s.readReg .addr = s.addr ∧ s.readReg .len = s.len ∧ s.readReg .tmo = s.tmo ∧
    s.readReg .tmoShort = s.tmoShort ∧ s.readReg .status = s.status ∧
    s.readReg .id = s.idBytes.setWidth 32 ∧ s.readReg .sr = s.sr.setWidth 32 ∧ s.readReg .mmoff = s.mmoff ∧
    (s.readReg .mmdata).extractLsb' 0 8 = s.mmExp ∧ (s.readReg .mmdata).extractLsb' 8 8 = s.mmObs ∧
    (s.readReg .mmdata).extractLsb' 16 16 = 0

/-- O9. R130: ADDR, LEN, TMO and TMO_SHORT take the full value whether BUSY is 0 or 1, a write to a read-only register is ignored, and a CMD write is the accepted one (R131) or the rejected one (R132). -/
def Obligations.HostWritesRegisters : Prop :=
  ∀ (s : State) (q : List Input) (v : Word),
    (s.inbox = .host (.write 0x004 .word v) :: q → step s = .next { s with inbox := q, addr := v }) ∧
    (s.inbox = .host (.write 0x008 .word v) :: q → step s = .next { s with inbox := q, len := v }) ∧
    (s.inbox = .host (.write 0x00C .word v) :: q → step s = .next { s with inbox := q, tmo := v }) ∧
    (s.inbox = .host (.write 0x010 .word v) :: q → step s = .next { s with inbox := q, tmoShort := v }) ∧
    (∀ r, r = Reg.status ∨ r = Reg.id ∨ r = Reg.sr ∨ r = Reg.mmoff ∨ r = Reg.mmdata →
      s.inbox = .host (.write r.offset .word v) :: q → step s = .next { s with inbox := q }) ∧
    (s.inbox = .host (.write 0x000 .word v) :: q →
      step s = if s.busy then .next { s with inbox := q, cmdrej := true }
        else .next (State.accept { s with inbox := q } (cmdOp v)))

/-- O10. R118: a read of an unmapped offset returns 0, a write to one is ignored, neither has a side effect. -/
def Obligations.UnmappedOffsets : Prop :=
  ∀ (s : State) (q : List Input) (off : BitVec 16) (w : Width) (v : Word),
    (0x28 ≤ off.toNat ∧ off.toNat + w.bytes ≤ 0x100) ∨ 0x100 + s.par.bufSize ≤ off.toNat →
    (s.inbox = .host (.read off w) :: q → step s = .next { s with inbox := q, hostData := some 0 }) ∧
    (s.inbox = .host (.write off w v) :: q → step s = .next { s with inbox := q })

/-- O11. R119: any access to the offsets 0x000 to 0x027 that is not an aligned 32-bit one is refused, and the reserved bits of every register read 0. -/
def Obligations.RegisterAccessWidth : Prop :=
  (∀ (s : State) (q : List Input) (off : BitVec 16) (w : Width) (v : Word), off.toNat < 0x28 →
    w ≠ .word ∨ off.toNat % 4 ≠ 0 →
    (s.inbox = .host (.read off w) :: q ∨ s.inbox = .host (.write off w v) :: q) →
    step s = .refused .registerAccess) ∧
  (∀ s : State, (s.readReg .cmd).extractLsb' 4 28 = 0 ∧ s.status.getLsbD 7 = false ∧
    s.status.extractLsb' 16 16 = 0 ∧ (s.readReg .id).extractLsb' 24 8 = 0 ∧
    (s.readReg .sr).extractLsb' 8 24 = 0 ∧ (s.readReg .mmdata).extractLsb' 16 16 = 0)

/-- O12. R140, writes: an aligned access inside BUF writes its bytes little-endian while BUSY = 0 and every other byte stays; it is ignored while BUSY = 1; a misaligned access, or one that runs past BUF_SIZE, is refused. That an access which begins at an unmapped offset below BUF and runs into it is refused as well is the model's choice (log 9). -/
def Obligations.BufWrites : Prop :=
  ∀ (s : State) (q : List Input) (off : BitVec 16) (w : Width) (v : Word),
    0x28 ≤ off.toNat → 0x100 < off.toNat + w.bytes → off.toNat < 0x100 + s.par.bufSize →
    s.inbox = .host (.write off w v) :: q →
    (off.toNat < 0x100 → step s = .refused .bufAccess) ∧
    (off.toNat % w.bytes ≠ 0 ∨ 0x100 + s.par.bufSize < off.toNat + w.bytes → step s = .refused .bufAccess) ∧
    (0x100 ≤ off.toNat → off.toNat % w.bytes = 0 → off.toNat + w.bytes ≤ 0x100 + s.par.bufSize →
      s.busy = true → step s = .next { s with inbox := q }) ∧
    (0x100 ≤ off.toNat → off.toNat % w.bytes = 0 → off.toNat + w.bytes ≤ 0x100 + s.par.bufSize →
      s.busy = false →
      ∃ m : Memory, step s = .next { s with inbox := q, buf := m } ∧
        (∀ k, k < w.bytes → m.read (off.toNat - 0x100 + k) = some (v.extractLsb' (8 * k) 8)) ∧
        (∀ i, i < off.toNat - 0x100 ∨ off.toNat - 0x100 + w.bytes ≤ i → m.read i = s.buf.read i))

/-- O13. R140, R142, reads: an aligned access inside BUF returns its bytes little-endian at any time, and faults when one of them is unwritten; a misaligned access, or one that runs past BUF_SIZE, is refused. That an access which begins at an unmapped offset below BUF and runs into it is refused as well is the model's choice (log 9). -/
def Obligations.BufReads : Prop :=
  ∀ (s : State) (q : List Input) (off : BitVec 16) (w : Width),
    0x28 ≤ off.toNat → 0x100 < off.toNat + w.bytes → off.toNat < 0x100 + s.par.bufSize →
    s.inbox = .host (.read off w) :: q →
    (off.toNat < 0x100 → step s = .refused .bufAccess) ∧
    (off.toNat % w.bytes ≠ 0 ∨ 0x100 + s.par.bufSize < off.toNat + w.bytes → step s = .refused .bufAccess) ∧
    (0x100 ≤ off.toNat → off.toNat % w.bytes = 0 → off.toNat + w.bytes ≤ 0x100 + s.par.bufSize →
      (∃ k, k < w.bytes ∧ s.buf.read (off.toNat - 0x100 + k) = none) → step s = .fault .unwrittenBuf) ∧
    (0x100 ≤ off.toNat → off.toNat % w.bytes = 0 → off.toNat + w.bytes ≤ 0x100 + s.par.bufSize →
      ∀ f : Nat → Byte, (∀ k, k < w.bytes → s.buf.read (off.toNat - 0x100 + k) = some (f k)) →
      ∃ v : Word, step s = .next { s with inbox := q, hostData := some v } ∧
        (∀ k, k < w.bytes → v.extractLsb' (8 * k) 8 = f k) ∧ v.toNat < 2 ^ (8 * w.bytes))

/-! ## Starting an operation -/

/-- O14. R131: where each of the sixteen host operations begins: exec of a host operation while BUSY = 0 accepts it, latching the operands and clearing what the rule clears, and changes nothing else. That `exec` of a host operation is its accept while BUSY = 0 is the model's choice (log 10). -/
def Obligations.AcceptLatchesOperands : Prop :=
  ∀ (s : State) (o : Op), s.busy = false →
    exec o.instr s = .next { s with
      opL := o, addrL := s.addr, lenL := s.len, tmoL := s.tmo, tmosL := s.tmoShort
      busy := true, done := false, err := .ok, cmdrej := false, stepNo := 0
      idv := if o = .readId then false else s.idv
      mmoff := if o = .verifyErased ∨ o = .verifyData ∨ o = .selftest then 0 else s.mmoff
      mmExp := if o = .verifyErased ∨ o = .verifyData ∨ o = .selftest then 0 else s.mmExp
      mmObs := if o = .verifyErased ∨ o = .verifyData ∨ o = .selftest then 0 else s.mmObs
      mstate := .run (match o with
        | .reset => .op .rsten
        | .readId => .op .rdid
        | .en4b | .writeEnable => .op .wren
        | .waitBusy => .op (.poll none)
        | .erase | .program | .read | .verifyErased | .verifyData => .op .check
        | .selftest => .seq (.setStep .one)
        | .reserved0 | .reservedC | .reservedD | .reservedE | .reservedF =>
          .op (.finish .invalidArgument)) }

/-- O15. R132: a CMD write while BUSY = 1 changes only CMDREJ: the running operation, the latches and CMD's read value are unchanged, and no second operation is queued. -/
def Obligations.RejectWhileBusy : Prop :=
  ∀ (s : State) (q : List Input) (v : Word), s.busy = true → s.inbox = .host (.write 0x000 .word v) :: q →
    step s = .next { s with inbox := q, cmdrej := true }

/-- O16. A step runs the decoded instruction: the command word of a CMD write while BUSY = 0, and on an engine turn the running operation; an idle engine waits (R122, R131, R520). That the turn is the head of `inbox`, and that an empty `inbox` is an engine turn, is the model's choice (log 3). -/
def Obligations.StepRunsDecodedInstruction : Prop :=
  (∀ (s : State) (q : List Input) (v : Word), s.busy = false → s.inbox = .host (.write 0x000 .word v) :: q →
    step s = exec (decodeCmd v) { s with inbox := q }) ∧
  (∀ (s : State) (o : Op) (p : Pos) (q : List Input), s.runs o p → s.inbox = .engine :: q →
    step s = exec o.instr { s with inbox := q }) ∧
  (∀ (s : State) (o : Op) (p : Pos), s.runs o p → s.inbox = [] → step s = exec o.instr s) ∧
  (∀ (s : State) (q : List Input), s.mstate = .idle → s.inbox = .engine :: q →
    step s = .next { s with inbox := q }) ∧
  (∀ s : State, s.mstate = .idle → s.inbox = [] → step s = .next s)

/-- O17. The two levels of instruction (R2): at a transaction of a running operation, the engine's step is exec of the device instruction emitted there, with the operands the formatter gets (R310, R407). -/
def Obligations.EngineStepRunsDeviceInstruction : Prop :=
  ∀ (s : State) (o : Op) (p : Pos) (i : Instr), s.runs o p → p.legal o = true → s.busInstr = some i →
    exec o.instr s = exec i s

/-! ## Transactions -/

/-- O18. R403 to R406, R410, for the nine device instructions: where the write data is written, exec answers a next state in which BT has gained exactly one record, of the row's descriptor; `send` is called first, a data phase follows only a successful `send` of a row that has one, no call is repeated, and received bytes are recorded only on `Ok`, exactly `DLEN` of them. The caller gets those bytes on `Ok`, and `BUS_ERROR` or `BUS_TIMEOUT` for the outcome of that name. -/
def Obligations.DeviceInstructionIsOneTransaction : Prop :=
  ∀ (s : State) (name : DevName) (a n : Word) (wdata : List Byte),
    (if name = .pp4 then s.buf.readList 0 n.toNat = some wdata else wdata = []) →
    ∃ (t : State) (r : BusRecord), exec (name.instr a n) s = .next t ∧ t.bt = s.bt ++ [r] ∧
      r.desc = mkDesc s.par.ins name
        (if name = .se4 ∨ name = .pp4 ∨ name = .read4 then a else 0)
        (if name = .pp4 ∨ name = .read4 then n else 0) ∧
      r.wdata = wdata ∧
      r.result = (match r.outcome with
        | .ok => .ok r.rdata
        | .busError => .err .busError
        | .busTimeout => .err .busTimeout) ∧
      ((∃ x, x ≠ .ok ∧ r.calls = [⟨.send, s.par.tBusMs, x⟩] ∧ r.outcome = x ∧ r.rdata = []) ∨
       (r.desc.dir = .none ∧ r.calls = [⟨.send, s.par.tBusMs, .ok⟩] ∧ r.outcome = .ok ∧ r.rdata = []) ∨
       (r.desc.dir = .write ∧ ∃ x, r.calls = [⟨.send, s.par.tBusMs, .ok⟩, ⟨.transmit, s.par.tBusMs, x⟩] ∧
         r.outcome = x ∧ r.rdata = []) ∨
       (r.desc.dir = .read ∧ ∃ x, r.calls = [⟨.send, s.par.tBusMs, .ok⟩, ⟨.receive, s.par.tBusMs, x⟩] ∧
         r.outcome = x ∧ r.rdata.length = if x = .ok then r.desc.dlen.toNat else 0))

/-- O19. R142, R420: PP4 whose data holds an unwritten BUF byte faults. -/
def Obligations.ProgramOfUnwrittenDataFaults : Prop :=
  ∀ (s : State) (a n : Word) (k : Nat), k < n.toNat → s.buf.read k = none →
    exec (.pp4 a n) s = .fault .unwrittenBuf

/-- O20. The frame of the device instructions that store nothing and read no data (RSTEN, RST, WREN, EN4B, SE4), of RDID, RDSR and PP4: every host register, latch, the buffer, EV and the ports' inbox are unchanged; `IDV` and `ID` change only by RDID, `SR` only by RDSR, and RSTEN and RDID leave `PHASE`. -/
def Obligations.DeviceInstructionFrame : Prop :=
  ∀ (s t : State) (i : Instr), i.op = none → (∀ a n, i ≠ .read4 a n) → exec i s = .next t →
    t.par = s.par ∧ t.addr = s.addr ∧ t.len = s.len ∧ t.tmo = s.tmo ∧ t.tmoShort = s.tmoShort ∧
    t.busy = s.busy ∧ t.done = s.done ∧ t.cmdrej = s.cmdrej ∧ t.err = s.err ∧ t.stepNo = s.stepNo ∧
    t.mmoff = s.mmoff ∧ t.mmExp = s.mmExp ∧ t.mmObs = s.mmObs ∧ t.opL = s.opL ∧ t.addrL = s.addrL ∧
    t.lenL = s.lenL ∧ t.tmoL = s.tmoL ∧ t.tmosL = s.tmosL ∧ t.ev = s.ev ∧ t.inbox = s.inbox ∧
    t.hostData = s.hostData ∧ (∀ k, t.buf.read k = s.buf.read k) ∧
    (i ≠ .rdid → t.idv = s.idv ∧ t.idBytes = s.idBytes) ∧ (i ≠ .rdsr → t.sr = s.sr) ∧
    (i = .rsten ∨ i = .rdid → t.phase = s.phase)

/-- O21. The frame of READ4 (R421, R555): as O20, and a byte of BUF changes only when READ's own transaction returned `Ok`, at the first `n` indexes, to the byte received. -/
def Obligations.ReadFrame : Prop :=
  ∀ (s t : State) (a n : Word), exec (.read4 a n) s = .next t →
    t.par = s.par ∧ t.addr = s.addr ∧ t.len = s.len ∧ t.tmo = s.tmo ∧ t.tmoShort = s.tmoShort ∧
    t.busy = s.busy ∧ t.done = s.done ∧ t.cmdrej = s.cmdrej ∧ t.idv = s.idv ∧ t.phase = s.phase ∧
    t.err = s.err ∧ t.stepNo = s.stepNo ∧ t.idBytes = s.idBytes ∧ t.sr = s.sr ∧ t.mmoff = s.mmoff ∧
    t.mmExp = s.mmExp ∧ t.mmObs = s.mmObs ∧ t.opL = s.opL ∧ t.addrL = s.addrL ∧ t.lenL = s.lenL ∧
    t.tmoL = s.tmoL ∧ t.tmosL = s.tmosL ∧ t.ev = s.ev ∧ t.inbox = s.inbox ∧ t.hostData = s.hostData ∧
    ∃ r, t.bt = s.bt ++ [r] ∧
      (∀ k, n.toNat ≤ k → t.buf.read k = s.buf.read k) ∧
      (∀ k, k < n.toNat → t.buf.read k = s.buf.read k ∨
        (r.outcome = .ok ∧ t.buf.read k = some (r.rdata.getD k 0) ∧
          ∃ p, s.mstate = .run p ∧ p.issues s.opL = some .read4 ∧ p.opOf s.opL = .read))

/-! ## The operations, engine step by engine step -/

/-- O22. R522: `finish(e)` writes ERR, BUSY, DONE and the sequencer, and changes nothing else, for every host operation and reserved code. -/
def Obligations.FinishEndsTheOperation : Prop :=
  ∀ (s : State) (o : Op) (e : Err),
    (o ≠ .selftest ∧ s.runs o (.op (.finish e))) ∨ (o = .selftest ∧ s.runs o (.seq (.finish e))) →
    exec o.instr s = .next { s with err := e, busy := false, done := true, mstate := .idle }

/-- O23. R530: RESET sends RSTEN, sends RST only when RSTEN returned `Ok`, and writes `PHASE <- IDLE` only when RST did; the first error ends it. -/
def Obligations.ResetSendsRstenThenRst : Prop :=
  ∀ (s : State) (p : Pos),
    (s.inBody .reset .rsten p →
      let d := mkDesc s.par.ins .rsten 0 0
      exec s.opL.instr s = .next { s.afterBus d [] with
        mstate := .run (match (transfer s.par.tBusMs d [] s.draws).result with
          | .ok _ => p.goto .rst
          | .err e => p.leave e) }) ∧
    (s.inBody .reset .rst p →
      let d := mkDesc s.par.ins .rst 0 0
      exec s.opL.instr s = .next { s.afterBus d [] with
        phase := (match (transfer s.par.tBusMs d [] s.draws).result with
          | .ok _ => .idle
          | .err _ => s.phase)
        mstate := .run (match (transfer s.par.tBusMs d [] s.draws).result with
          | .ok _ => p.leave .ok
          | .err e => p.leave e) })

/-- O24. R532, R612: READ_ID stores the three bytes in arrival order, manufacturer lowest, and sets IDV; on an error ID keeps its value; inside SELFTEST the same step first clears IDV. -/
def Obligations.ReadIdStoresIdentity : Prop :=
  ∀ (s : State) (p : Pos), s.inBody .readId .rdid p →
    let d := mkDesc s.par.ins .rdid 0 0
    (∀ b0 b1 b2, (transfer s.par.tBusMs d [] s.draws).result = .ok [b0, b1, b2] →
      exec s.opL.instr s = .next { s.afterBus d [] with
        idBytes := (b2 ++ b1 ++ b0 : BitVec 24), idv := true, mstate := .run (p.leave .ok) }) ∧
    (∀ e, (transfer s.par.tBusMs d [] s.draws).result = .err e →
      exec s.opL.instr s = .next { s.afterBus d [] with
        idv := (match p with
          | .sub _ _ => false
          | _ => s.idv)
        mstate := .run (p.leave e) }) ∧
    ((∃ b0 b1 b2, (transfer s.par.tBusMs d [] s.draws).result = .ok [b0, b1, b2]) ∨
      ∃ e, (transfer s.par.tBusMs d [] s.draws).result = .err e)

/-- O25. R460, R417: `WE()` sends WREN once, with `PHASE <- WE_PENDING` in the same step; an error returns PHASE to IDLE and ends the operation; after `Ok` the status polls begin. For WRITE_ENABLE, EN4B, ERASE and PROGRAM. -/
def Obligations.WriteEnableHandshakeBegins : Prop :=
  ∀ (s : State) (p : Pos) (x : Op), x = .writeEnable ∨ x = .en4b ∨ x = .erase ∨ x = .program →
    s.inBody x .wren p →
    let d := mkDesc s.par.ins .wren 0 0
    exec s.opL.instr s = .next { s.afterBus d [] with
      phase := (match (transfer s.par.tBusMs d [] s.draws).result with
        | .ok _ => .wePending
        | .err _ => .idle)
      mstate := .run (match (transfer s.par.tBusMs d [] s.draws).result with
        | .ok _ => p.goto (.poll none)
        | .err e => p.leave e) }

/-- O26. R452, R453, R457, R458, R460, R470: one poll of the bounded loop, in WAIT_BUSY and in the handshake of WRITE_ENABLE, EN4B, ERASE and PROGRAM. The first poll's step samples the loop entry. A failed poll ends the loop with its error and leaves SR. A received byte goes to SR; a predicate it satisfies ends the loop `Ok` whatever the deadline; otherwise a sample after the poll ends it `TIMEOUT` when the elapsed ticks reach the timeout, and the loop goes on when they do not. -/
def Obligations.PollLoop : Prop :=
  ∀ (s : State) (p : Pos) (x : Op) (c : Option PollTimes),
    x = .waitBusy ∨ x = .writeEnable ∨ x = .en4b ∨ x = .erase ∨ x = .program → s.inBody x (.poll c) p →
    let q := (match c with | some _ => s.draws | none => s.draws.afterNow)
    let t0 := (match c with | some c => c.t0 | none => s.draws.now)
    let tmo := if x = .waitBusy then (s.argsAt p).t else s.par.tWelMs
    let d := mkDesc s.par.ins .rdsr 0 0
    let r := transfer s.par.tBusMs d [] q
    let q1 := transferDraws d q
    let s1 := { s with bt := s.bt ++ [r], draws := q1 }
    (∀ e, r.result = .err e →
      exec s.opL.instr s = .next { s1 with
        phase := if x = .waitBusy then s.phase else .idle, mstate := .run (p.leave e) }) ∧
    (∀ b, r.result = .ok [b] →
      ((if x = .waitBusy then b.getLsbD s.par.wipBit.val = false else b.getLsbD s.par.welBit.val = true) →
        exec s.opL.instr s = .next { s1 with
          sr := b
          phase := (if x = .waitBusy then (if s.phase = .deviceBusy then .idle else s.phase) else .weLatched)
          mstate := .run (if x = .waitBusy ∨ x = .writeEnable then p.leave .ok else p.goto .issue) }) ∧
      (¬ (if x = .waitBusy then b.getLsbD s.par.wipBit.val = false else b.getLsbD s.par.welBit.val = true) →
        (tmo.toNat ≤ (elapsed t0 q1.now).toNat →
          exec s.opL.instr s = .next { s1 with
            sr := b, draws := q1.afterNow
            phase := if x = .waitBusy then s.phase else .idle, mstate := .run (p.leave .timeout) }) ∧
        ((elapsed t0 q1.now).toNat < tmo.toNat →
          exec s.opL.instr s = .next { s1 with
            sr := b, draws := q1.afterNow
            mstate := .run (if s.par.pollGapMs = 0 then p.goto (.poll (some ⟨t0, q1.now⟩))
              else p.goto (.gap ⟨t0, q1.now⟩)) }))) ∧
    ((∃ e, r.result = .err e) ∨ ∃ b, r.result = .ok [b])

/-- O27. R454: with a timeout of 0, a poll loop makes exactly one poll, whose step always ends the loop: with the poll's own error when it fails, `Ok` when the byte satisfies the predicate, and `TIMEOUT` otherwise. -/
def Obligations.ZeroTimeoutMakesOnePoll : Prop :=
  ∀ (s : State) (p : Pos) (x : Op), x = .waitBusy ∨ x = .writeEnable ∨ x = .en4b ∨ x = .erase ∨ x = .program →
    s.inBody x (.poll none) p → (if x = .waitBusy then (s.argsAt p).t else s.par.tWelMs) = 0 →
    ∃ t r, exec s.opL.instr s = .next t ∧ t.bt = s.bt ++ [r] ∧ r.desc = mkDesc s.par.ins .rdsr 0 0 ∧
      ((∃ e, (e = .busError ∨ e = .busTimeout) ∧ r.result = .err e ∧ t.mstate = .run (p.leave e)) ∨
        ∃ b, r.result = .ok [b] ∧
          t.mstate = .run (if (if x = .waitBusy then b.getLsbD s.par.wipBit.val = false
              else b.getLsbD s.par.welBit.val = true)
            then (if x = .waitBusy ∨ x = .writeEnable then p.leave .ok else p.goto .issue)
            else p.leave .timeout))

/-- O28. R455: a gap step takes one sample and changes nothing but the position, which moves back to the poll when the gap or the deadline has passed. -/
def Obligations.GapWaitStep : Prop :=
  ∀ (s : State) (p : Pos) (x : Op) (c : PollTimes),
    x = .waitBusy ∨ x = .writeEnable ∨ x = .en4b ∨ x = .erase ∨ x = .program → s.inBody x (.gap c) p →
    let tmo := if x = .waitBusy then (s.argsAt p).t else s.par.tWelMs
    exec s.opL.instr s = .next { s with
      draws := s.draws.afterNow
      mstate := .run (if s.par.pollGapMs.toNat ≤ (elapsed c.tlast s.draws.now).toNat ∨
          tmo.toNat ≤ (elapsed c.t0 s.draws.now).toNat
        then p.goto (.poll (some c)) else p) }

/-- O29. R523, R210, R211, R212, R545, R550, R555, R602, R605: the argument-check step of ERASE, PROGRAM, READ, VERIFY_ERASED and VERIFY_DATA, in exact arithmetic: a failed check moves to `finish(INVALID_ARGUMENT)` with no transaction and no other change, and passing ones move on. SELFTEST's sub-operations are included: that its step 5 can fail check 2 of R602 when `ERASE_ALIGN_CHECK` is false is the model's reading of R612 and R602, where R618 lists no such check (log 22). -/
def Obligations.ArgumentChecks : Prop :=
  ∀ (s : State) (p : Pos) (x : Op), s.inBody x .check p →
    x = .erase ∨ x = .program ∨ x = .read ∨ x = .verifyErased ∨ x = .verifyData →
    let a := (s.argsAt p).a.toNat
    let n := (s.argsAt p).n.toNat
    let good : Prop := match x with
      | .erase => n = s.par.subsectorSize.toNat ∧ (s.par.eraseAlignCheck = true → a % s.par.subsectorSize.toNat = 0)
      | .program => n ≠ 0 ∧ n ≤ s.par.pageSize.toNat ∧ a % s.par.pageSize.toNat + n ≤ s.par.pageSize.toNat
      | .verifyErased => n ≠ 0 ∧ a + n ≤ 2 ^ 32
      | _ => n ≠ 0 ∧ n ≤ s.par.bufSize ∧ a + n ≤ 2 ^ 32
    (good → exec s.opL.instr s = .next { s with mstate := .run (p.goto
      (if x = .erase ∨ x = .program then .wren else .read4)) }) ∧
    (¬ good → exec s.opL.instr s = .next { s with mstate := .run (p.leave .invalidArgument) })

/-- O30. R526, R540, R545, R550: in EN4B, ERASE and PROGRAM, `PHASE <- CMD_ISSUED` is a step of its own, and the command's transaction writes DEVICE_BUSY on `Ok` and IDLE on `Err`. PROGRAM sends `BUF[0..n)`. -/
def Obligations.MutatingCommand : Prop :=
  ∀ (s : State) (p : Pos) (x : Op), x = .en4b ∨ x = .erase ∨ x = .program →
    (s.inBody x .issue p →
      exec s.opL.instr s = .next { s with phase := .cmdIssued, mstate := .run (p.goto .command) }) ∧
    (s.inBody x .command p → ∀ wdata : List Byte,
      (if x = .program then s.buf.readList 0 (s.argsAt p).n.toNat = some wdata else wdata = []) →
      let d := match x with
        | .en4b => mkDesc s.par.ins .en4b 0 0
        | .erase => mkDesc s.par.ins .se4 (s.argsAt p).a 0
        | _ => mkDesc s.par.ins .pp4 (s.argsAt p).a (s.argsAt p).n
      exec s.opL.instr s = .next { s.afterBus d wdata with
        phase := (match (transfer s.par.tBusMs d wdata s.draws).result with
          | .ok _ => .deviceBusy
          | .err _ => .idle)
        mstate := .run (match (transfer s.par.tBusMs d wdata s.draws).result with
          | .ok _ => p.leave .ok
          | .err e => p.leave e) })

/-- O31. R555: READ makes one READ4; on `Ok` received byte k goes to `BUF[k]`, the bytes above stay, and it ends `OK`; on an error BUF is unchanged. -/
def Obligations.ReadFillsBuf : Prop :=
  ∀ (s : State) (p : Pos), s.inBody .read .read4 p →
    let d := mkDesc s.par.ins .read4 (s.argsAt p).a (s.argsAt p).n
    (∀ b, (transfer s.par.tBusMs d [] s.draws).result = .ok b →
      b.length = (s.argsAt p).n.toNat ∧
      ∃ m : Memory, exec s.opL.instr s = .next { s.afterBus d [] with buf := m, mstate := .run (p.leave .ok) } ∧
        (∀ k, k < b.length → m.read k = some (b.getD k 0)) ∧
        (∀ k, b.length ≤ k → m.read k = s.buf.read k)) ∧
    (∀ e, (transfer s.par.tBusMs d [] s.draws).result = .err e →
      exec s.opL.instr s = .next { s.afterBus d [] with mstate := .run (p.leave e) })

/-- O32. R601, R602, R605: a verify operation makes one READ4 over the whole span and holds the bytes for its compare step; an error ends it. -/
def Obligations.VerifyReadsTheSpan : Prop :=
  ∀ (s : State) (p : Pos) (x : Op), x = .verifyErased ∨ x = .verifyData → s.inBody x .read4 p →
    let d := mkDesc s.par.ins .read4 (s.argsAt p).a (s.argsAt p).n
    exec s.opL.instr s = .next { s.afterBus d [] with
      mstate := .run (match (transfer s.par.tBusMs d [] s.draws).result with
        | .ok b => p.goto (.compare b)
        | .err e => p.leave e) }

/-- O33. R602, R603, R604: VERIFY_ERASED's compare records the least offset whose byte is not ERASED_BYTE, with the expected and the observed byte, and ends VERIFY_MISMATCH; it ends `OK` with no record when there is none. -/
def Obligations.VerifyErasedCompare : Prop :=
  ∀ (s : State) (p : Pos) (rd : List Byte), s.inBody .verifyErased (.compare rd) p →
    rd.length = (s.argsAt p).n.toNat →
    (∀ k, k < rd.length → rd.getD k 0 ≠ s.par.erasedByte →
      (∀ j, j < k → rd.getD j 0 = s.par.erasedByte) →
      exec s.opL.instr s = .next { s with
        mmoff := BitVec.ofNat 32 k, mmExp := s.par.erasedByte, mmObs := rd.getD k 0
        mstate := .run (p.leave .verifyMismatch) }) ∧
    ((∀ j, j < rd.length → rd.getD j 0 = s.par.erasedByte) →
      exec s.opL.instr s = .next { s with mstate := .run (p.leave .ok) })

/-- O34. R605, R603, R604, R142: VERIFY_DATA's compare, against `BUF[0..len)`; an unwritten byte there is a fault even above the mismatch. -/
def Obligations.VerifyDataCompare : Prop :=
  ∀ (s : State) (p : Pos) (rd : List Byte), s.inBody .verifyData (.compare rd) p →
    rd.length = (s.argsAt p).n.toNat →
    ((∃ k, k < rd.length ∧ s.buf.read k = none) → exec s.opL.instr s = .fault .unwrittenBuf) ∧
    (∀ f : Nat → Byte, (∀ k, k < rd.length → s.buf.read k = some (f k)) →
      (∀ k, k < rd.length → rd.getD k 0 ≠ f k → (∀ j, j < k → rd.getD j 0 = f j) →
        exec s.opL.instr s = .next { s with
          mmoff := BitVec.ofNat 32 k, mmExp := f k, mmObs := rd.getD k 0
          mstate := .run (p.leave .verifyMismatch) }) ∧
      ((∀ j, j < rd.length → rd.getD j 0 = f j) →
        exec s.opL.instr s = .next { s with mstate := .run (p.leave .ok) }))

/-- O35. R610, R611, R620, R630, R631: SELFTEST's own steps. `Step(n)` writes STEP and goes to the step's first sub-operation; `Settle()` samples, then waits until SETTLE_TICKS have passed; each pass and each failure emits one event with the fields of R631; a failure then finishes with its error, and step 9's event with `OK`. -/
def Obligations.SelftestOwnSteps : Prop :=
  ∀ s : State,
    (∀ n, s.runs .selftest (.seq (.setStep n)) →
      exec .selftest s = .next { s with stepNo := n.number, mstate := .run (match n with
        | .one => .sub .reset1 .rsten
        | .two => .sub .readId2 .rdid
        | .three => .sub .en4b3 .wren
        | .four => .sub .erase4 .check
        | .five => .sub .verifyErased5 .check
        | .six => .sub .program6 .check
        | .seven => .sub .wait7 (.poll none)
        | .eight => .sub .verifyData8 .check
        | .nine => .seq (.pass .nine)) }) ∧
    (s.runs .selftest (.seq .settleStart) →
      exec .selftest s = .next { s with
        draws := s.draws.afterNow, mstate := .run (.seq (.settle s.draws.now)) }) ∧
    (∀ ts, s.runs .selftest (.seq (.settle ts)) →
      exec .selftest s = .next { s with
        draws := s.draws.afterNow
        mstate := .run (if s.par.settleTicks.toNat ≤ (elapsed ts s.draws.now).toNat then .seq (.pass .one)
          else .seq (.settle ts)) }) ∧
    (∀ n, s.runs .selftest (.seq (.pass n)) →
      exec .selftest s = .next { s with
        ev := s.ev ++ [{ step := n, op := n.op, outcome := .ok
                         id := if n = .two then some s.idBytes else none
                         offset := none, expected := none, observed := none }]
        mstate := .run (match n.succ with
          | some n' => .seq (.setStep n')
          | none => .seq (.finish .ok)) }) ∧
    (∀ n e, s.runs .selftest (.seq (.fail n e)) →
      exec .selftest s = .next { s with
        ev := s.ev ++ [{ step := n, op := n.op, outcome := e, id := none
                         offset := if e = .verifyMismatch then some s.mmoff else none
                         expected := if e = .verifyMismatch then some s.mmExp else none
                         observed := if e = .verifyMismatch then some s.mmObs else none }]
        mstate := .run (.seq (.finish e)) })

/-- O36. R303, R522, R610, R612, R615, R617, R701: where a body's end leads: for a host operation, to `finish` with the code it ended with; for a sub-operation, an error to the event of its own step and `Ok` to the next statement of the sequence. A host operation's operands are the latches, with WAIT_BUSY's deadline `tmo_l`; those of each sub-operation are the test region, the fixed length and the timeout of R610. Within a body, the next statement is one of the same body. -/
def Obligations.SelftestSequence : Prop :=
  (∀ (m : Stmt) (e : Err), (Pos.op m).leave e = .op (.finish e)) ∧
  (∀ m m' : Stmt, (Pos.op m).goto m' = .op m') ∧
  (∀ (k : Sub) (m m' : Stmt), (Pos.sub k m).goto m' = .sub k m') ∧
  (∀ (s : State) (m : Stmt), s.argsAt (.op m) = { a := s.addrL, n := s.lenL, t := s.tmoL }) ∧
  (∀ (k : Sub) (m : Stmt) (e : Err), e ≠ .ok → (Pos.sub k m).leave e = .seq (.fail k.step e)) ∧
  (∀ (k : Sub) (m : Stmt), (Pos.sub k m).leave .ok = match k with
    | .reset1 => .seq .settleStart
    | .readId2 => .seq (.pass .two)
    | .en4b3 => .sub .wait3 (.poll none)
    | .wait3 => .seq (.pass .three)
    | .erase4 => .sub .wait4 (.poll none)
    | .wait4 => .seq (.pass .four)
    | .verifyErased5 => .seq (.pass .five)
    | .program6 => .seq (.pass .six)
    | .wait7 => .seq (.pass .seven)
    | .verifyData8 => .seq (.pass .eight)) ∧
  (∀ (s : State) (k : Sub) (m : Stmt),
    (s.argsAt (.sub k m)).a = s.addrL ∧
    (k = .erase4 ∨ k = .verifyErased5 → (s.argsAt (.sub k m)).n = s.par.subsectorSize) ∧
    (k = .program6 ∨ k = .verifyData8 → (s.argsAt (.sub k m)).n = s.par.pageSize) ∧
    (k = .wait3 ∨ k = .wait7 → (s.argsAt (.sub k m)).t = s.tmosL) ∧
    (k = .wait4 → (s.argsAt (.sub k m)).t = s.tmoL))

/-! ## Whole operations -/

/-- O37. R530, from accept to `finish`: with every call `Ok`, RESET takes four engine steps, sends RSTEN and RST, ends `OK` with PHASE = IDLE and leaves IDV and ID. -/
def Obligations.ResetRuns : Prop :=
  ∀ (s : State) (bus : List BusOutcome), s.busy = false → s.draws.bus = .ok :: .ok :: bus →
    ∃ t r1 r2, execTimes 4 .reset s = .next t ∧
      t.bt = s.bt ++ [r1, r2] ∧ r1.desc = mkDesc s.par.ins .rsten 0 0 ∧ r2.desc = mkDesc s.par.ins .rst 0 0 ∧
      r1.outcome = .ok ∧ r2.outcome = .ok ∧
      t.busy = false ∧ t.done = true ∧ t.err = .ok ∧ t.phase = .idle ∧ t.mstate = .idle ∧
      t.idv = s.idv ∧ t.idBytes = s.idBytes ∧ t.sr = s.sr ∧ t.buf = s.buf ∧ t.ev = s.ev ∧ t.draws.bus = bus

/-- O38. R461, R460, R452, R453, from accept to `finish`, with no inter-poll gap: with WREN `Ok` and status bytes none of which shows WEL, any number `bs.length` of polls before the deadline and one at or after it, WRITE_ENABLE sends WREN once and RDSR once per byte, and ends TIMEOUT with PHASE = IDLE and the last byte in SR. -/
def Obligations.WriteEnableTimesOut : Prop :=
  ∀ (s : State) (bs : List Byte) (b : Byte) (t0 t1 : Word) (ts : List Word) (bus : List BusOutcome)
    (rx : List Byte) (tick : List Word),
    s.busy = false → s.par.pollGapMs = 0 → ts.length = bs.length →
    s.draws.bus = .ok :: (List.replicate (2 * (bs.length + 1)) .ok ++ bus) → s.draws.rx = bs ++ b :: rx →
    s.draws.tick = t0 :: (ts ++ t1 :: tick) →
    (∀ x, x ∈ bs ++ [b] → x.getLsbD s.par.welBit.val = false) →
    (∀ x, x ∈ ts → (elapsed t0 x).toNat < s.par.tWelMs.toNat) → s.par.tWelMs.toNat ≤ (elapsed t0 t1).toNat →
    ∃ (t : State) (r : BusRecord) (rs : List BusRecord), execTimes (bs.length + 4) .writeEnable s = .next t ∧
      t.bt = s.bt ++ r :: rs ∧ r.desc = mkDesc s.par.ins .wren 0 0 ∧ r.outcome = .ok ∧
      rs.map (·.rdata) = (bs ++ [b]).map (fun x => [x]) ∧
      (∀ x, x ∈ rs → x.desc = mkDesc s.par.ins .rdsr 0 0 ∧ x.outcome = .ok) ∧
      t.busy = false ∧ t.done = true ∧ t.err = .timeout ∧ t.phase = .idle ∧ t.sr = b ∧ t.buf = s.buf ∧
      t.draws.bus = bus ∧ t.draws.rx = rx ∧ t.draws.tick = tick

/-- O39. R545, from accept to `finish`: with legal arguments, every call `Ok` and WEL in the first status byte, ERASE takes seven engine steps, sends WREN, RDSR and SE4 at ADDR, and ends `OK` with PHASE = DEVICE_BUSY. -/
def Obligations.EraseRuns : Prop :=
  ∀ (s : State) (b : Byte) (t0 : Word) (bus : List BusOutcome) (rx : List Byte) (tick : List Word),
    s.busy = false → argsOk .erase s.par s.addr s.len = true →
    s.draws.bus = .ok :: .ok :: .ok :: .ok :: bus → s.draws.rx = b :: rx → s.draws.tick = t0 :: tick →
    b.getLsbD s.par.welBit.val = true →
    ∃ t r1 r2 r3, execTimes 7 .erase s = .next t ∧ t.bt = s.bt ++ [r1, r2, r3] ∧
      r1.desc = mkDesc s.par.ins .wren 0 0 ∧ r2.desc = mkDesc s.par.ins .rdsr 0 0 ∧ r2.rdata = [b] ∧
      r3.desc = mkDesc s.par.ins .se4 s.addr 0 ∧ r3.outcome = .ok ∧
      t.busy = false ∧ t.done = true ∧ t.err = .ok ∧ t.phase = .deviceBusy ∧ t.sr = b ∧ t.buf = s.buf ∧
      t.idv = s.idv ∧ t.idBytes = s.idBytes ∧ t.mmoff = s.mmoff ∧ t.ev = s.ev

/-- O40. R550, from accept to `finish`: PROGRAM with legal arguments and written data sends PP4 with `BUF[0..LEN)` verbatim and ends `OK` with PHASE = DEVICE_BUSY, BUF unchanged. -/
def Obligations.ProgramRuns : Prop :=
  ∀ (s : State) (b : Byte) (t0 : Word) (wdata : List Byte) (bus : List BusOutcome) (rx : List Byte)
    (tick : List Word),
    s.busy = false → argsOk .program s.par s.addr s.len = true →
    s.buf.readList 0 s.len.toNat = some wdata →
    s.draws.bus = .ok :: .ok :: .ok :: .ok :: .ok :: bus → s.draws.rx = b :: rx → s.draws.tick = t0 :: tick →
    b.getLsbD s.par.welBit.val = true →
    ∃ t r1 r2 r3, execTimes 7 .program s = .next t ∧ t.bt = s.bt ++ [r1, r2, r3] ∧
      r1.desc = mkDesc s.par.ins .wren 0 0 ∧ r2.desc = mkDesc s.par.ins .rdsr 0 0 ∧
      r3.desc = mkDesc s.par.ins .pp4 s.addr s.len ∧ r3.wdata = wdata ∧ r3.outcome = .ok ∧
      t.busy = false ∧ t.done = true ∧ t.err = .ok ∧ t.phase = .deviceBusy ∧ t.sr = b ∧ t.buf = s.buf

/-- O41. R525, from accept to `finish`: a reserved code is accepted, and two engine steps end it INVALID_ARGUMENT with no transaction, no event and no other change of a result. -/
def Obligations.ReservedCodesRun : Prop :=
  ∀ (s : State) (o : Op), o = .reserved0 ∨ o = .reservedC ∨ o = .reservedD ∨ o = .reservedE ∨ o = .reservedF →
    s.busy = false →
    ∃ t, execTimes 2 o.instr s = .next t ∧ t.busy = false ∧ t.done = true ∧ t.err = .invalidArgument ∧
      t.cmdrej = false ∧ t.stepNo = 0 ∧ t.opL = o ∧ t.bt = s.bt ∧ t.ev = s.ev ∧ t.draws = s.draws ∧
      t.phase = s.phase ∧ t.idv = s.idv ∧ t.idBytes = s.idBytes ∧ t.sr = s.sr ∧ t.mmoff = s.mmoff ∧
      t.mmExp = s.mmExp ∧ t.mmObs = s.mmObs ∧ t.buf = s.buf

/-- O42. R532, from accept to `finish`: with every call `Ok`, READ_ID takes three engine steps, sends RDID, stores the three bytes, sets IDV and ends `OK`. -/
def Obligations.ReadIdRuns : Prop :=
  ∀ (s : State) (b0 b1 b2 : Byte) (bus : List BusOutcome) (rx : List Byte), s.busy = false →
    s.draws.bus = .ok :: .ok :: bus → s.draws.rx = b0 :: b1 :: b2 :: rx →
    ∃ t r, execTimes 3 .readId s = .next t ∧ t.bt = s.bt ++ [r] ∧ r.desc = mkDesc s.par.ins .rdid 0 0 ∧
      r.outcome = .ok ∧ r.rdata = [b0, b1, b2] ∧ t.idBytes = (b2 ++ b1 ++ b0 : BitVec 24) ∧ t.idv = true ∧
      t.busy = false ∧ t.done = true ∧ t.err = .ok ∧ t.phase = s.phase ∧ t.sr = s.sr ∧ t.buf = s.buf ∧
      t.ev = s.ev ∧ t.draws.bus = bus ∧ t.draws.rx = rx

/-- O43. R461, R540, R526, from accept to `finish`: with every call `Ok` and WEL in the first status byte, WRITE_ENABLE takes four engine steps, sends WREN and RDSR and ends `OK` with PHASE = WE_LATCHED; EN4B takes six, then sends EN4B, and ends `OK` with PHASE = DEVICE_BUSY. -/
def Obligations.HandshakeOperationsRun : Prop :=
  ∀ (s : State) (b : Byte) (t0 : Word) (bus : List BusOutcome) (rx : List Byte) (tick : List Word),
    s.busy = false → s.draws.bus = .ok :: .ok :: .ok :: .ok :: bus → s.draws.rx = b :: rx →
    s.draws.tick = t0 :: tick → b.getLsbD s.par.welBit.val = true →
    (∃ t r1 r2, execTimes 4 .writeEnable s = .next t ∧ t.bt = s.bt ++ [r1, r2] ∧
      r1.desc = mkDesc s.par.ins .wren 0 0 ∧ r2.desc = mkDesc s.par.ins .rdsr 0 0 ∧ r2.rdata = [b] ∧
      t.busy = false ∧ t.done = true ∧ t.err = .ok ∧ t.phase = .weLatched ∧ t.sr = b ∧ t.buf = s.buf ∧
      t.draws.bus = .ok :: bus) ∧
    (∃ t r1 r2 r3, execTimes 6 .en4b s = .next t ∧ t.bt = s.bt ++ [r1, r2, r3] ∧
      r1.desc = mkDesc s.par.ins .wren 0 0 ∧ r2.desc = mkDesc s.par.ins .rdsr 0 0 ∧
      r3.desc = mkDesc s.par.ins .en4b 0 0 ∧ r3.outcome = .ok ∧
      t.busy = false ∧ t.done = true ∧ t.err = .ok ∧ t.phase = .deviceBusy ∧ t.sr = b ∧ t.buf = s.buf ∧
      t.draws.bus = bus)

/-- O44. R470, R452, from accept to `finish`: with every call `Ok` and WIP = 0 in the first status byte, WAIT_BUSY takes three engine steps whatever TMO is, sends one RDSR, moves PHASE from DEVICE_BUSY to IDLE and leaves any other PHASE, and ends `OK`. -/
def Obligations.WaitBusyRuns : Prop :=
  ∀ (s : State) (b : Byte) (bus : List BusOutcome) (rx : List Byte), s.busy = false →
    s.draws.bus = .ok :: .ok :: bus → s.draws.rx = b :: rx → b.getLsbD s.par.wipBit.val = false →
    ∃ t r, execTimes 3 .waitBusy s = .next t ∧ t.bt = s.bt ++ [r] ∧ r.desc = mkDesc s.par.ins .rdsr 0 0 ∧
      r.outcome = .ok ∧ r.rdata = [b] ∧ t.busy = false ∧ t.done = true ∧ t.err = .ok ∧ t.sr = b ∧
      t.phase = (if s.phase = .deviceBusy then .idle else s.phase) ∧ t.buf = s.buf ∧ t.idv = s.idv ∧
      t.idBytes = s.idBytes ∧ t.ev = s.ev

/-- O45. R555, from accept to `finish`: with legal arguments and every call `Ok`, READ takes four engine steps, sends one READ4 of LEN bytes at ADDR, and ends `OK` with the bytes in BUF from index 0 and PHASE unchanged. -/
def Obligations.ReadRuns : Prop :=
  ∀ (s : State) (b : List Byte) (bus : List BusOutcome) (rx : List Byte), s.busy = false →
    argsOk .read s.par s.addr s.len = true → b.length = s.len.toNat →
    s.draws.bus = .ok :: .ok :: bus → s.draws.rx = b ++ rx →
    ∃ t r, execTimes 4 .read s = .next t ∧ t.bt = s.bt ++ [r] ∧
      r.desc = mkDesc s.par.ins .read4 s.addr s.len ∧ r.outcome = .ok ∧ r.rdata = b ∧
      t.busy = false ∧ t.done = true ∧ t.err = .ok ∧ t.phase = s.phase ∧ t.sr = s.sr ∧
      t.buf.readList 0 s.len.toNat = some b ∧ (∀ k, b.length ≤ k → t.buf.read k = s.buf.read k)

/-- O46. R601, R602, R605, from accept to `finish`: with legal arguments, every call `Ok` and the expected bytes received, VERIFY_ERASED and VERIFY_DATA take five engine steps, send one READ4 over the span, record no mismatch, leave BUF and end `OK`. -/
def Obligations.VerifyRuns : Prop :=
  ∀ (s : State) (x : Op) (b : List Byte) (bus : List BusOutcome) (rx : List Byte), s.busy = false →
    (x = .verifyErased ∧ b = List.replicate s.len.toNat s.par.erasedByte) ∨
      (x = .verifyData ∧ s.buf.readList 0 s.len.toNat = some b) →
    argsOk x s.par s.addr s.len = true → s.draws.bus = .ok :: .ok :: bus → s.draws.rx = b ++ rx →
    ∃ t r, execTimes 5 x.instr s = .next t ∧ t.bt = s.bt ++ [r] ∧
      r.desc = mkDesc s.par.ins .read4 s.addr s.len ∧ r.outcome = .ok ∧ r.rdata = b ∧
      t.busy = false ∧ t.done = true ∧ t.err = .ok ∧ t.mmoff = 0 ∧ t.mmExp = 0 ∧ t.mmObs = 0 ∧
      t.phase = s.phase ∧ t.buf = s.buf ∧ t.ev = s.ev

/-- O47. R610, the source's end-to-end scenario: with every call `Ok`, every poll satisfied at once, an erased region and the pattern read back, SELFTEST takes 48 engine steps, appends the seventeen records and the nine events of the rule, and ends `OK` with STEP = 9, PHASE = IDLE and IDV = 1. -/
def Obligations.SelftestEndToEnd : Prop :=
  ∀ (s : State) (t1 t2 t3 t4 t5 t6 t7 t8 : Word) (i0 i1 i2 e3 w3 e4 w4 e6 w7 : Byte)
    (pattern : List Byte) (bus : List BusOutcome) (rx : List Byte) (tick : List Word),
    s.busy = false → s.par.wf = true → argsOk .erase s.par s.addr s.par.subsectorSize = true →
    argsOk .program s.par s.addr s.par.pageSize = true →
    argsOk .verifyErased s.par s.addr s.par.subsectorSize = true →
    s.buf.readList 0 s.par.pageSize.toNat = some pattern →
    s.draws.bus = List.replicate 27 .ok ++ bus →
    s.draws.rx = i0 :: i1 :: i2 :: e3 :: w3 :: e4 :: w4 ::
      (List.replicate s.par.subsectorSize.toNat s.par.erasedByte ++ e6 :: w7 :: (pattern ++ rx)) →
    s.draws.tick = t1 :: t2 :: t3 :: t4 :: t5 :: t6 :: t7 :: t8 :: tick →
    s.par.settleTicks.toNat ≤ (elapsed t1 t2).toNat →
    e3.getLsbD s.par.welBit.val = true → e4.getLsbD s.par.welBit.val = true →
    e6.getLsbD s.par.welBit.val = true → w3.getLsbD s.par.wipBit.val = false →
    w4.getLsbD s.par.wipBit.val = false → w7.getLsbD s.par.wipBit.val = false →
    ∃ t, execTimes 48 .selftest s = .next t ∧
      t.busy = false ∧ t.done = true ∧ t.err = .ok ∧ t.stepNo = 9 ∧ t.phase = .idle ∧ t.idv = true ∧
      t.idBytes = (i2 ++ i1 ++ i0 : BitVec 24) ∧ t.sr = w7 ∧ t.mmoff = 0 ∧ t.buf = s.buf ∧ t.draws.bus = bus ∧
      t.bt.map (·.desc) = s.bt.map (·.desc) ++ selftestDescs s.par s.addr ∧
      t.ev.map (fun e => (e.step, e.op, e.outcome)) =
        s.ev.map (fun e => (e.step, e.op, e.outcome)) ++ selftestEvents

/-! ## Invariants and whole-machine rules -/

/-- O48. The invariant holds of the state after reset. -/
def Obligations.ResetMeetsInv : Prop := Inv State.reset

/-- O49. Every step keeps the invariant: the engine runs exactly while BUSY = 1, (BUSY, DONE) is never (1, 1), the position is a statement of the running operation, PHASE and STEP are those the position implies, the arguments were checked before the first transaction, the buffer keeps its canonical form within BUF_SIZE, an ended operation's code is one R703 allows, and every record of BT is a well-formed descriptor of a row of R310. -/
def Obligations.StepKeepsInv : Prop :=
  ∀ s s' : State, Inv s → step s = .next s' → Inv s'

/-- O50. From a state that meets the invariant, a step faults only where an unwritten BUF byte is used (R142), and is refused only for a host access (R706): the engine never stops for another reason, and no instruction is refused. -/
def Obligations.OnlyModelFaults : Prop :=
  ∀ s : State, Inv s →
    (∀ f, step s = .fault f → f = .unwrittenBuf ∧
      ((∃ off w q, s.inbox = .host (.read off w) :: q) ∨
       (∃ p, s.engineAt = some p ∧ p.issues s.opL = some .pp4) ∨
       (∃ p rd, s.engineAt = some p ∧ p.opOf s.opL = .verifyData ∧
         (p = .op (.compare rd) ∨ ∃ k, p = .sub k (.compare rd))))) ∧
    (∀ r, step s = .refused r → (r = .registerAccess ∨ r = .bufAccess) ∧ ∃ a q, s.inbox = .host a :: q)

/-- O51. R120: a step that changes PHASE is one of the rows of the table, each with its cause: WE_PENDING goes to IDLE only when the poll's transaction failed, or its byte does not show WEL and the deadline was reached. -/
def Obligations.PhaseTable : Prop :=
  ∀ s s' : State, Inv s → step s = .next s' → s'.phase = s.phase ∨ PhaseRow s s'

/-- O52. R703, R112: a step that ends an operation leaves in ERR a code the raising matrix allows for it (SELFTEST: all six). -/
def Obligations.RaisingMatrix : Prop :=
  ∀ s s' : State, Inv s → step s = .next s' → s.busy = true → s'.busy = false → s.engineTurn = true →
    (match s.opL with
      | .reset | .readId => s'.err = .ok ∨ s'.err = .busError ∨ s'.err = .busTimeout
      | .en4b | .writeEnable | .waitBusy =>
        s'.err = .ok ∨ s'.err = .busError ∨ s'.err = .busTimeout ∨ s'.err = .timeout
      | .erase | .program =>
        s'.err = .ok ∨ s'.err = .busError ∨ s'.err = .busTimeout ∨ s'.err = .timeout ∨ s'.err = .invalidArgument
      | .read => s'.err = .ok ∨ s'.err = .busError ∨ s'.err = .busTimeout ∨ s'.err = .invalidArgument
      | .verifyErased | .verifyData =>
        s'.err = .ok ∨ s'.err = .busError ∨ s'.err = .busTimeout ∨ s'.err = .invalidArgument ∨
          s'.err = .verifyMismatch
      | .selftest => True
      | _ => s'.err = .invalidArgument)

/-- O53. R124, R410: BT and EV are append-only: a step leaves each alone or appends one record; only an engine step at a transaction appends to BT, only SELFTEST's emits to EV, and block reset clears neither. -/
def Obligations.RecordsAppendOnly : Prop :=
  ∀ s s' : State, Inv s → step s = .next s' →
    (s'.bt = s.bt ∨ ∃ p name r, s.engineAt = some p ∧ p.issues s.opL = some name ∧ s'.bt = s.bt ++ [r]) ∧
    (s'.ev = s.ev ∨ ∃ p e, s.engineAt = some p ∧ s.opL = .selftest ∧ s'.ev = s.ev ++ [e] ∧
      ((∃ n, p = .seq (.pass n)) ∨ ∃ n x, p = .seq (.fail n x)))

/-- O54. R141: BUF has two writers: the host while BUSY = 0, and READ, whose transaction returned `Ok`; block reset makes it unwritten. -/
def Obligations.BufWriters : Prop :=
  ∀ s s' : State, step s = .next s' → s'.buf = s.buf ∨
    (s.busy = false ∧ ∃ off w v q, s.inbox = .host (.write off w v) :: q) ∨
    (∃ p r, s.engineAt = some p ∧ p.issues s.opL = some .read4 ∧ p.opOf s.opL = .read ∧
      s'.bt = s.bt ++ [r] ∧ r.outcome = .ok) ∨
    (∃ q, s.inbox = .rst :: q)

/-- O55. R110, R114, R115: only READ_ID's transaction writes ID; IDV is written by it, cleared by the accept of a READ_ID and by block reset; only a poll writes SR. -/
def Obligations.IdentityAndStatusWriters : Prop :=
  ∀ s s' : State, step s = .next s' → (∀ q, s.inbox ≠ .rst :: q) →
    (s'.idBytes = s.idBytes ∨ ∃ p r, s.engineAt = some p ∧ p.issues s.opL = some .rdid ∧
      s'.bt = s.bt ++ [r] ∧ r.outcome = .ok) ∧
    (s'.idv = s.idv ∨ (∃ p, s.engineAt = some p ∧ p.issues s.opL = some .rdid) ∨
      (s'.idv = false ∧ s.busy = false ∧ s'.opL = .readId ∧ s'.busy = true)) ∧
    (s'.sr = s.sr ∨ ∃ p r b, s.engineAt = some p ∧ p.issues s.opL = some .rdsr ∧
      s'.bt = s.bt ++ [r] ∧ r.outcome = .ok ∧ r.rdata = [b] ∧ s'.sr = b)

/-- O56. R121: while an operation runs, no step but block reset changes a latch, `op_l` or the parameters; so a host write to ADDR, LEN, TMO or TMO_SHORT takes effect only for the next operation. -/
def Obligations.LatchesHoldWhileBusy : Prop :=
  ∀ s s' : State, Inv s → step s = .next s' → s.busy = true → (∀ q, s.inbox ≠ .rst :: q) →
    s'.opL = s.opL ∧ s'.addrL = s.addrL ∧ s'.lenL = s.lenL ∧ s'.tmoL = s.tmoL ∧ s'.tmosL = s.tmosL ∧
    s'.par = s.par

/-- O57. R115, R120, R811: nothing but SR depends on SR, and nothing but PHASE depends on PHASE: changing either, or both, before a step of any instruction leaves everything else after it the same, and does not change whether it faults. -/
def Obligations.EngineReadsNeitherSrNorPhase : Prop :=
  ∀ (i : Instr) (s : State) (x : Byte) (f : Phase),
    (∀ t, exec i s = .next t → ∃ y g,
      exec i { s with sr := x } = .next { t with sr := y } ∧
      exec i { s with phase := f } = .next { t with phase := g } ∧
      exec i { s with sr := x, phase := f } = .next { t with sr := y, phase := g }) ∧
    (∀ e, exec i s = .fault e →
      exec i { s with sr := x } = .fault e ∧ exec i { s with phase := f } = .fault e ∧
      exec i { s with sr := x, phase := f } = .fault e)

/-- O58. R121, R520: a running operation reads the latches, never the operand registers: changing ADDR, LEN, TMO and TMO_SHORT before one of its steps changes nothing after it but those registers. -/
def Obligations.EngineReadsOnlyLatches : Prop :=
  ∀ (s : State) (o : Op) (p : Pos) (a l t ts : Word), s.runs o p →
    (∀ s', exec o.instr s = .next s' →
      exec o.instr { s with addr := a, len := l, tmo := t, tmoShort := ts } =
        .next { s' with addr := a, len := l, tmo := t, tmoShort := ts }) ∧
    (∀ e, exec o.instr s = .fault e →
      exec o.instr { s with addr := a, len := l, tmo := t, tmoShort := ts } = .fault e)

/-! ## Named premises -/

/-- O59. R721: `elapsed` is the difference modulo 2^32, and under TickContract it is the number of ticks between the two samples, across a wrap. -/
def Obligations.ElapsedCountsTicks : Prop :=
  (∀ t0 t1 : Word, (elapsed t0 t1).toNat = (t1.toNat + 2 ^ 32 - t0.toNat) % 2 ^ 32) ∧
  (∀ (m0 m1 : Nat) (t0 t1 : Word), TickContract m0 m1 t0 t1 → (elapsed t0 t1).toNat = m1 - m0) ∧
  elapsed 0xFFFFFFFE 0x00000001 = 3 ∧ elapsed 5 5 = 0 ∧ elapsed 6 5 = 0xFFFFFFFF

/-- O60. R225, R227, R602: under DeviceContract, with the device bound by it, enabled and idle in 32-bit mode, an SE4 at an aligned address inside the capacity, a poll that shows WIP = 0, and VERIFY_ERASED's own READ4 of that subsector leave VERIFY_ERASED at `finish(OK)` after its compare step: the erased region reads back as erased. The third event is the one the machine's next two steps show the device. The settle time as an event (log 17), the capacity (log 20) and the row a transaction carries (log 21) are the model's. -/
def Obligations.ErasedRegionVerifies : Prop :=
  ∀ (s : State) (cap : Nat) (d e : Device) (r1 r2 r3 : BusRecord) (b : Byte),
    s.runs .verifyErased (.op .read4) → verifyErasedArgs s.addrL s.lenL = true →
    s.lenL = s.par.subsectorSize → s.addrL.toNat % s.par.subsectorSize.toNat = 0 →
    s.addrL.toNat + s.lenL.toNat ≤ cap →
    d.standing = .bound → d.wip = false → d.wel = true → d.mode4 = true →
    r1.desc = mkDesc s.par.ins .se4 s.addrL 0 → r1.outcome = .ok →
    r2.desc = mkDesc s.par.ins .rdsr 0 0 → r2.outcome = .ok → r2.rdata = [b] → wipClear s.par b = true →
    r3 = s.record (mkDesc s.par.ins .read4 s.addrL s.lenL) [] → r3.outcome = .ok →
    DeviceContract s.par cap d [.xact .se4 r1, .xact .rdsr r2, .xact .read4 r3] e →
    (∃ t, execTimes 2 .verifyErased s = .next t ∧ t.mstate = .run (.op (.finish .ok)) ∧
      t.bt = s.bt ++ [r3] ∧ t.mmoff = s.mmoff) ∧
    (s.inbox = [] → s.runEvents 2 = [.xact .read4 r3])
end

