-- ==== Sys2Proof/Laws/State.lean ====
section
/-! SUPPORT. One lemma per field per named update of State, so that no proof unfolds a record update. -/

namespace Sys2Proof.Machine

variable (s : State)

/-! ## goto -/

@[simp] theorem State.goto_par (p : Pos) (m : Stmt) : (s.goto p m).par = s.par := rfl
@[simp] theorem State.goto_addr (p : Pos) (m : Stmt) : (s.goto p m).addr = s.addr := rfl
@[simp] theorem State.goto_len (p : Pos) (m : Stmt) : (s.goto p m).len = s.len := rfl
@[simp] theorem State.goto_tmo (p : Pos) (m : Stmt) : (s.goto p m).tmo = s.tmo := rfl
@[simp] theorem State.goto_tmoShort (p : Pos) (m : Stmt) : (s.goto p m).tmoShort = s.tmoShort := rfl
@[simp] theorem State.goto_busy (p : Pos) (m : Stmt) : (s.goto p m).busy = s.busy := rfl
@[simp] theorem State.goto_done (p : Pos) (m : Stmt) : (s.goto p m).done = s.done := rfl
@[simp] theorem State.goto_cmdrej (p : Pos) (m : Stmt) : (s.goto p m).cmdrej = s.cmdrej := rfl
@[simp] theorem State.goto_idv (p : Pos) (m : Stmt) : (s.goto p m).idv = s.idv := rfl
@[simp] theorem State.goto_phase (p : Pos) (m : Stmt) : (s.goto p m).phase = s.phase := rfl
@[simp] theorem State.goto_err (p : Pos) (m : Stmt) : (s.goto p m).err = s.err := rfl
@[simp] theorem State.goto_stepNo (p : Pos) (m : Stmt) : (s.goto p m).stepNo = s.stepNo := rfl
@[simp] theorem State.goto_idBytes (p : Pos) (m : Stmt) : (s.goto p m).idBytes = s.idBytes := rfl
@[simp] theorem State.goto_sr (p : Pos) (m : Stmt) : (s.goto p m).sr = s.sr := rfl
@[simp] theorem State.goto_mmoff (p : Pos) (m : Stmt) : (s.goto p m).mmoff = s.mmoff := rfl
@[simp] theorem State.goto_mmExp (p : Pos) (m : Stmt) : (s.goto p m).mmExp = s.mmExp := rfl
@[simp] theorem State.goto_mmObs (p : Pos) (m : Stmt) : (s.goto p m).mmObs = s.mmObs := rfl
@[simp] theorem State.goto_buf (p : Pos) (m : Stmt) : (s.goto p m).buf = s.buf := rfl
@[simp] theorem State.goto_opL (p : Pos) (m : Stmt) : (s.goto p m).opL = s.opL := rfl
@[simp] theorem State.goto_addrL (p : Pos) (m : Stmt) : (s.goto p m).addrL = s.addrL := rfl
@[simp] theorem State.goto_lenL (p : Pos) (m : Stmt) : (s.goto p m).lenL = s.lenL := rfl
@[simp] theorem State.goto_tmoL (p : Pos) (m : Stmt) : (s.goto p m).tmoL = s.tmoL := rfl
@[simp] theorem State.goto_tmosL (p : Pos) (m : Stmt) : (s.goto p m).tmosL = s.tmosL := rfl
@[simp] theorem State.goto_mstate (p : Pos) (m : Stmt) : (s.goto p m).mstate = .run (p.goto m) := rfl
@[simp] theorem State.goto_bt (p : Pos) (m : Stmt) : (s.goto p m).bt = s.bt := rfl
@[simp] theorem State.goto_ev (p : Pos) (m : Stmt) : (s.goto p m).ev = s.ev := rfl
@[simp] theorem State.goto_inbox (p : Pos) (m : Stmt) : (s.goto p m).inbox = s.inbox := rfl
@[simp] theorem State.goto_draws (p : Pos) (m : Stmt) : (s.goto p m).draws = s.draws := rfl
@[simp] theorem State.goto_hostData (p : Pos) (m : Stmt) : (s.goto p m).hostData = s.hostData := rfl

/-! ## leave -/

@[simp] theorem State.leave_par (p : Pos) (e : Err) : (s.leave p e).par = s.par := rfl
@[simp] theorem State.leave_addr (p : Pos) (e : Err) : (s.leave p e).addr = s.addr := rfl
@[simp] theorem State.leave_len (p : Pos) (e : Err) : (s.leave p e).len = s.len := rfl
@[simp] theorem State.leave_tmo (p : Pos) (e : Err) : (s.leave p e).tmo = s.tmo := rfl
@[simp] theorem State.leave_tmoShort (p : Pos) (e : Err) : (s.leave p e).tmoShort = s.tmoShort := rfl
@[simp] theorem State.leave_busy (p : Pos) (e : Err) : (s.leave p e).busy = s.busy := rfl
@[simp] theorem State.leave_done (p : Pos) (e : Err) : (s.leave p e).done = s.done := rfl
@[simp] theorem State.leave_cmdrej (p : Pos) (e : Err) : (s.leave p e).cmdrej = s.cmdrej := rfl
@[simp] theorem State.leave_idv (p : Pos) (e : Err) : (s.leave p e).idv = s.idv := rfl
@[simp] theorem State.leave_phase (p : Pos) (e : Err) : (s.leave p e).phase = s.phase := rfl
@[simp] theorem State.leave_err (p : Pos) (e : Err) : (s.leave p e).err = s.err := rfl
@[simp] theorem State.leave_stepNo (p : Pos) (e : Err) : (s.leave p e).stepNo = s.stepNo := rfl
@[simp] theorem State.leave_idBytes (p : Pos) (e : Err) : (s.leave p e).idBytes = s.idBytes := rfl
@[simp] theorem State.leave_sr (p : Pos) (e : Err) : (s.leave p e).sr = s.sr := rfl
@[simp] theorem State.leave_mmoff (p : Pos) (e : Err) : (s.leave p e).mmoff = s.mmoff := rfl
@[simp] theorem State.leave_mmExp (p : Pos) (e : Err) : (s.leave p e).mmExp = s.mmExp := rfl
@[simp] theorem State.leave_mmObs (p : Pos) (e : Err) : (s.leave p e).mmObs = s.mmObs := rfl
@[simp] theorem State.leave_buf (p : Pos) (e : Err) : (s.leave p e).buf = s.buf := rfl
@[simp] theorem State.leave_opL (p : Pos) (e : Err) : (s.leave p e).opL = s.opL := rfl
@[simp] theorem State.leave_addrL (p : Pos) (e : Err) : (s.leave p e).addrL = s.addrL := rfl
@[simp] theorem State.leave_lenL (p : Pos) (e : Err) : (s.leave p e).lenL = s.lenL := rfl
@[simp] theorem State.leave_tmoL (p : Pos) (e : Err) : (s.leave p e).tmoL = s.tmoL := rfl
@[simp] theorem State.leave_tmosL (p : Pos) (e : Err) : (s.leave p e).tmosL = s.tmosL := rfl
@[simp] theorem State.leave_mstate (p : Pos) (e : Err) : (s.leave p e).mstate = .run (p.leave e) := rfl
@[simp] theorem State.leave_bt (p : Pos) (e : Err) : (s.leave p e).bt = s.bt := rfl
@[simp] theorem State.leave_ev (p : Pos) (e : Err) : (s.leave p e).ev = s.ev := rfl
@[simp] theorem State.leave_inbox (p : Pos) (e : Err) : (s.leave p e).inbox = s.inbox := rfl
@[simp] theorem State.leave_draws (p : Pos) (e : Err) : (s.leave p e).draws = s.draws := rfl
@[simp] theorem State.leave_hostData (p : Pos) (e : Err) : (s.leave p e).hostData = s.hostData := rfl

/-! ## moveTo -/

@[simp] theorem State.moveTo_par (p : Pos) : (s.moveTo p).par = s.par := rfl
@[simp] theorem State.moveTo_addr (p : Pos) : (s.moveTo p).addr = s.addr := rfl
@[simp] theorem State.moveTo_len (p : Pos) : (s.moveTo p).len = s.len := rfl
@[simp] theorem State.moveTo_tmo (p : Pos) : (s.moveTo p).tmo = s.tmo := rfl
@[simp] theorem State.moveTo_tmoShort (p : Pos) : (s.moveTo p).tmoShort = s.tmoShort := rfl
@[simp] theorem State.moveTo_busy (p : Pos) : (s.moveTo p).busy = s.busy := rfl
@[simp] theorem State.moveTo_done (p : Pos) : (s.moveTo p).done = s.done := rfl
@[simp] theorem State.moveTo_cmdrej (p : Pos) : (s.moveTo p).cmdrej = s.cmdrej := rfl
@[simp] theorem State.moveTo_idv (p : Pos) : (s.moveTo p).idv = s.idv := rfl
@[simp] theorem State.moveTo_phase (p : Pos) : (s.moveTo p).phase = s.phase := rfl
@[simp] theorem State.moveTo_err (p : Pos) : (s.moveTo p).err = s.err := rfl
@[simp] theorem State.moveTo_stepNo (p : Pos) : (s.moveTo p).stepNo = s.stepNo := rfl
@[simp] theorem State.moveTo_idBytes (p : Pos) : (s.moveTo p).idBytes = s.idBytes := rfl
@[simp] theorem State.moveTo_sr (p : Pos) : (s.moveTo p).sr = s.sr := rfl
@[simp] theorem State.moveTo_mmoff (p : Pos) : (s.moveTo p).mmoff = s.mmoff := rfl
@[simp] theorem State.moveTo_mmExp (p : Pos) : (s.moveTo p).mmExp = s.mmExp := rfl
@[simp] theorem State.moveTo_mmObs (p : Pos) : (s.moveTo p).mmObs = s.mmObs := rfl
@[simp] theorem State.moveTo_buf (p : Pos) : (s.moveTo p).buf = s.buf := rfl
@[simp] theorem State.moveTo_opL (p : Pos) : (s.moveTo p).opL = s.opL := rfl
@[simp] theorem State.moveTo_addrL (p : Pos) : (s.moveTo p).addrL = s.addrL := rfl
@[simp] theorem State.moveTo_lenL (p : Pos) : (s.moveTo p).lenL = s.lenL := rfl
@[simp] theorem State.moveTo_tmoL (p : Pos) : (s.moveTo p).tmoL = s.tmoL := rfl
@[simp] theorem State.moveTo_tmosL (p : Pos) : (s.moveTo p).tmosL = s.tmosL := rfl
@[simp] theorem State.moveTo_mstate (p : Pos) : (s.moveTo p).mstate = .run p := rfl
@[simp] theorem State.moveTo_bt (p : Pos) : (s.moveTo p).bt = s.bt := rfl
@[simp] theorem State.moveTo_ev (p : Pos) : (s.moveTo p).ev = s.ev := rfl
@[simp] theorem State.moveTo_inbox (p : Pos) : (s.moveTo p).inbox = s.inbox := rfl
@[simp] theorem State.moveTo_draws (p : Pos) : (s.moveTo p).draws = s.draws := rfl
@[simp] theorem State.moveTo_hostData (p : Pos) : (s.moveTo p).hostData = s.hostData := rfl

/-! ## afterNow -/

@[simp] theorem State.afterNow_par : (s.afterNow).par = s.par := rfl
@[simp] theorem State.afterNow_addr : (s.afterNow).addr = s.addr := rfl
@[simp] theorem State.afterNow_len : (s.afterNow).len = s.len := rfl
@[simp] theorem State.afterNow_tmo : (s.afterNow).tmo = s.tmo := rfl
@[simp] theorem State.afterNow_tmoShort : (s.afterNow).tmoShort = s.tmoShort := rfl
@[simp] theorem State.afterNow_busy : (s.afterNow).busy = s.busy := rfl
@[simp] theorem State.afterNow_done : (s.afterNow).done = s.done := rfl
@[simp] theorem State.afterNow_cmdrej : (s.afterNow).cmdrej = s.cmdrej := rfl
@[simp] theorem State.afterNow_idv : (s.afterNow).idv = s.idv := rfl
@[simp] theorem State.afterNow_phase : (s.afterNow).phase = s.phase := rfl
@[simp] theorem State.afterNow_err : (s.afterNow).err = s.err := rfl
@[simp] theorem State.afterNow_stepNo : (s.afterNow).stepNo = s.stepNo := rfl
@[simp] theorem State.afterNow_idBytes : (s.afterNow).idBytes = s.idBytes := rfl
@[simp] theorem State.afterNow_sr : (s.afterNow).sr = s.sr := rfl
@[simp] theorem State.afterNow_mmoff : (s.afterNow).mmoff = s.mmoff := rfl
@[simp] theorem State.afterNow_mmExp : (s.afterNow).mmExp = s.mmExp := rfl
@[simp] theorem State.afterNow_mmObs : (s.afterNow).mmObs = s.mmObs := rfl
@[simp] theorem State.afterNow_buf : (s.afterNow).buf = s.buf := rfl
@[simp] theorem State.afterNow_opL : (s.afterNow).opL = s.opL := rfl
@[simp] theorem State.afterNow_addrL : (s.afterNow).addrL = s.addrL := rfl
@[simp] theorem State.afterNow_lenL : (s.afterNow).lenL = s.lenL := rfl
@[simp] theorem State.afterNow_tmoL : (s.afterNow).tmoL = s.tmoL := rfl
@[simp] theorem State.afterNow_tmosL : (s.afterNow).tmosL = s.tmosL := rfl
@[simp] theorem State.afterNow_mstate : (s.afterNow).mstate = s.mstate := rfl
@[simp] theorem State.afterNow_bt : (s.afterNow).bt = s.bt := rfl
@[simp] theorem State.afterNow_ev : (s.afterNow).ev = s.ev := rfl
@[simp] theorem State.afterNow_inbox : (s.afterNow).inbox = s.inbox := rfl
@[simp] theorem State.afterNow_draws : (s.afterNow).draws = s.draws.afterNow := rfl
@[simp] theorem State.afterNow_hostData : (s.afterNow).hostData = s.hostData := rfl

/-! ## setPhase -/

@[simp] theorem State.setPhase_par (f : Phase) : (s.setPhase f).par = s.par := rfl
@[simp] theorem State.setPhase_addr (f : Phase) : (s.setPhase f).addr = s.addr := rfl
@[simp] theorem State.setPhase_len (f : Phase) : (s.setPhase f).len = s.len := rfl
@[simp] theorem State.setPhase_tmo (f : Phase) : (s.setPhase f).tmo = s.tmo := rfl
@[simp] theorem State.setPhase_tmoShort (f : Phase) : (s.setPhase f).tmoShort = s.tmoShort := rfl
@[simp] theorem State.setPhase_busy (f : Phase) : (s.setPhase f).busy = s.busy := rfl
@[simp] theorem State.setPhase_done (f : Phase) : (s.setPhase f).done = s.done := rfl
@[simp] theorem State.setPhase_cmdrej (f : Phase) : (s.setPhase f).cmdrej = s.cmdrej := rfl
@[simp] theorem State.setPhase_idv (f : Phase) : (s.setPhase f).idv = s.idv := rfl
@[simp] theorem State.setPhase_phase (f : Phase) : (s.setPhase f).phase = f := rfl
@[simp] theorem State.setPhase_err (f : Phase) : (s.setPhase f).err = s.err := rfl
@[simp] theorem State.setPhase_stepNo (f : Phase) : (s.setPhase f).stepNo = s.stepNo := rfl
@[simp] theorem State.setPhase_idBytes (f : Phase) : (s.setPhase f).idBytes = s.idBytes := rfl
@[simp] theorem State.setPhase_sr (f : Phase) : (s.setPhase f).sr = s.sr := rfl
@[simp] theorem State.setPhase_mmoff (f : Phase) : (s.setPhase f).mmoff = s.mmoff := rfl
@[simp] theorem State.setPhase_mmExp (f : Phase) : (s.setPhase f).mmExp = s.mmExp := rfl
@[simp] theorem State.setPhase_mmObs (f : Phase) : (s.setPhase f).mmObs = s.mmObs := rfl
@[simp] theorem State.setPhase_buf (f : Phase) : (s.setPhase f).buf = s.buf := rfl
@[simp] theorem State.setPhase_opL (f : Phase) : (s.setPhase f).opL = s.opL := rfl
@[simp] theorem State.setPhase_addrL (f : Phase) : (s.setPhase f).addrL = s.addrL := rfl
@[simp] theorem State.setPhase_lenL (f : Phase) : (s.setPhase f).lenL = s.lenL := rfl
@[simp] theorem State.setPhase_tmoL (f : Phase) : (s.setPhase f).tmoL = s.tmoL := rfl
@[simp] theorem State.setPhase_tmosL (f : Phase) : (s.setPhase f).tmosL = s.tmosL := rfl
@[simp] theorem State.setPhase_mstate (f : Phase) : (s.setPhase f).mstate = s.mstate := rfl
@[simp] theorem State.setPhase_bt (f : Phase) : (s.setPhase f).bt = s.bt := rfl
@[simp] theorem State.setPhase_ev (f : Phase) : (s.setPhase f).ev = s.ev := rfl
@[simp] theorem State.setPhase_inbox (f : Phase) : (s.setPhase f).inbox = s.inbox := rfl
@[simp] theorem State.setPhase_draws (f : Phase) : (s.setPhase f).draws = s.draws := rfl
@[simp] theorem State.setPhase_hostData (f : Phase) : (s.setPhase f).hostData = s.hostData := rfl

/-! ## finish -/

@[simp] theorem State.finish_par (e : Err) : (s.finish e).par = s.par := rfl
@[simp] theorem State.finish_addr (e : Err) : (s.finish e).addr = s.addr := rfl
@[simp] theorem State.finish_len (e : Err) : (s.finish e).len = s.len := rfl
@[simp] theorem State.finish_tmo (e : Err) : (s.finish e).tmo = s.tmo := rfl
@[simp] theorem State.finish_tmoShort (e : Err) : (s.finish e).tmoShort = s.tmoShort := rfl
@[simp] theorem State.finish_busy (e : Err) : (s.finish e).busy = false := rfl
@[simp] theorem State.finish_done (e : Err) : (s.finish e).done = true := rfl
@[simp] theorem State.finish_cmdrej (e : Err) : (s.finish e).cmdrej = s.cmdrej := rfl
@[simp] theorem State.finish_idv (e : Err) : (s.finish e).idv = s.idv := rfl
@[simp] theorem State.finish_phase (e : Err) : (s.finish e).phase = s.phase := rfl
@[simp] theorem State.finish_err (e : Err) : (s.finish e).err = e := rfl
@[simp] theorem State.finish_stepNo (e : Err) : (s.finish e).stepNo = s.stepNo := rfl
@[simp] theorem State.finish_idBytes (e : Err) : (s.finish e).idBytes = s.idBytes := rfl
@[simp] theorem State.finish_sr (e : Err) : (s.finish e).sr = s.sr := rfl
@[simp] theorem State.finish_mmoff (e : Err) : (s.finish e).mmoff = s.mmoff := rfl
@[simp] theorem State.finish_mmExp (e : Err) : (s.finish e).mmExp = s.mmExp := rfl
@[simp] theorem State.finish_mmObs (e : Err) : (s.finish e).mmObs = s.mmObs := rfl
@[simp] theorem State.finish_buf (e : Err) : (s.finish e).buf = s.buf := rfl
@[simp] theorem State.finish_opL (e : Err) : (s.finish e).opL = s.opL := rfl
@[simp] theorem State.finish_addrL (e : Err) : (s.finish e).addrL = s.addrL := rfl
@[simp] theorem State.finish_lenL (e : Err) : (s.finish e).lenL = s.lenL := rfl
@[simp] theorem State.finish_tmoL (e : Err) : (s.finish e).tmoL = s.tmoL := rfl
@[simp] theorem State.finish_tmosL (e : Err) : (s.finish e).tmosL = s.tmosL := rfl
@[simp] theorem State.finish_mstate (e : Err) : (s.finish e).mstate = .idle := rfl
@[simp] theorem State.finish_bt (e : Err) : (s.finish e).bt = s.bt := rfl
@[simp] theorem State.finish_ev (e : Err) : (s.finish e).ev = s.ev := rfl
@[simp] theorem State.finish_inbox (e : Err) : (s.finish e).inbox = s.inbox := rfl
@[simp] theorem State.finish_draws (e : Err) : (s.finish e).draws = s.draws := rfl
@[simp] theorem State.finish_hostData (e : Err) : (s.finish e).hostData = s.hostData := rfl

/-! ## reject -/

@[simp] theorem State.reject_par : (s.reject).par = s.par := rfl
@[simp] theorem State.reject_addr : (s.reject).addr = s.addr := rfl
@[simp] theorem State.reject_len : (s.reject).len = s.len := rfl
@[simp] theorem State.reject_tmo : (s.reject).tmo = s.tmo := rfl
@[simp] theorem State.reject_tmoShort : (s.reject).tmoShort = s.tmoShort := rfl
@[simp] theorem State.reject_busy : (s.reject).busy = s.busy := rfl
@[simp] theorem State.reject_done : (s.reject).done = s.done := rfl
@[simp] theorem State.reject_cmdrej : (s.reject).cmdrej = true := rfl
@[simp] theorem State.reject_idv : (s.reject).idv = s.idv := rfl
@[simp] theorem State.reject_phase : (s.reject).phase = s.phase := rfl
@[simp] theorem State.reject_err : (s.reject).err = s.err := rfl
@[simp] theorem State.reject_stepNo : (s.reject).stepNo = s.stepNo := rfl
@[simp] theorem State.reject_idBytes : (s.reject).idBytes = s.idBytes := rfl
@[simp] theorem State.reject_sr : (s.reject).sr = s.sr := rfl
@[simp] theorem State.reject_mmoff : (s.reject).mmoff = s.mmoff := rfl
@[simp] theorem State.reject_mmExp : (s.reject).mmExp = s.mmExp := rfl
@[simp] theorem State.reject_mmObs : (s.reject).mmObs = s.mmObs := rfl
@[simp] theorem State.reject_buf : (s.reject).buf = s.buf := rfl
@[simp] theorem State.reject_opL : (s.reject).opL = s.opL := rfl
@[simp] theorem State.reject_addrL : (s.reject).addrL = s.addrL := rfl
@[simp] theorem State.reject_lenL : (s.reject).lenL = s.lenL := rfl
@[simp] theorem State.reject_tmoL : (s.reject).tmoL = s.tmoL := rfl
@[simp] theorem State.reject_tmosL : (s.reject).tmosL = s.tmosL := rfl
@[simp] theorem State.reject_mstate : (s.reject).mstate = s.mstate := rfl
@[simp] theorem State.reject_bt : (s.reject).bt = s.bt := rfl
@[simp] theorem State.reject_ev : (s.reject).ev = s.ev := rfl
@[simp] theorem State.reject_inbox : (s.reject).inbox = s.inbox := rfl
@[simp] theorem State.reject_draws : (s.reject).draws = s.draws := rfl
@[simp] theorem State.reject_hostData : (s.reject).hostData = s.hostData := rfl

/-! ## emit -/

@[simp] theorem State.emit_par (e : Event) : (s.emit e).par = s.par := rfl
@[simp] theorem State.emit_addr (e : Event) : (s.emit e).addr = s.addr := rfl
@[simp] theorem State.emit_len (e : Event) : (s.emit e).len = s.len := rfl
@[simp] theorem State.emit_tmo (e : Event) : (s.emit e).tmo = s.tmo := rfl
@[simp] theorem State.emit_tmoShort (e : Event) : (s.emit e).tmoShort = s.tmoShort := rfl
@[simp] theorem State.emit_busy (e : Event) : (s.emit e).busy = s.busy := rfl
@[simp] theorem State.emit_done (e : Event) : (s.emit e).done = s.done := rfl
@[simp] theorem State.emit_cmdrej (e : Event) : (s.emit e).cmdrej = s.cmdrej := rfl
@[simp] theorem State.emit_idv (e : Event) : (s.emit e).idv = s.idv := rfl
@[simp] theorem State.emit_phase (e : Event) : (s.emit e).phase = s.phase := rfl
@[simp] theorem State.emit_err (e : Event) : (s.emit e).err = s.err := rfl
@[simp] theorem State.emit_stepNo (e : Event) : (s.emit e).stepNo = s.stepNo := rfl
@[simp] theorem State.emit_idBytes (e : Event) : (s.emit e).idBytes = s.idBytes := rfl
@[simp] theorem State.emit_sr (e : Event) : (s.emit e).sr = s.sr := rfl
@[simp] theorem State.emit_mmoff (e : Event) : (s.emit e).mmoff = s.mmoff := rfl
@[simp] theorem State.emit_mmExp (e : Event) : (s.emit e).mmExp = s.mmExp := rfl
@[simp] theorem State.emit_mmObs (e : Event) : (s.emit e).mmObs = s.mmObs := rfl
@[simp] theorem State.emit_buf (e : Event) : (s.emit e).buf = s.buf := rfl
@[simp] theorem State.emit_opL (e : Event) : (s.emit e).opL = s.opL := rfl
@[simp] theorem State.emit_addrL (e : Event) : (s.emit e).addrL = s.addrL := rfl
@[simp] theorem State.emit_lenL (e : Event) : (s.emit e).lenL = s.lenL := rfl
@[simp] theorem State.emit_tmoL (e : Event) : (s.emit e).tmoL = s.tmoL := rfl
@[simp] theorem State.emit_tmosL (e : Event) : (s.emit e).tmosL = s.tmosL := rfl
@[simp] theorem State.emit_mstate (e : Event) : (s.emit e).mstate = s.mstate := rfl
@[simp] theorem State.emit_bt (e : Event) : (s.emit e).bt = s.bt := rfl
@[simp] theorem State.emit_ev (e : Event) : (s.emit e).ev = s.ev ++ [e] := rfl
@[simp] theorem State.emit_inbox (e : Event) : (s.emit e).inbox = s.inbox := rfl
@[simp] theorem State.emit_draws (e : Event) : (s.emit e).draws = s.draws := rfl
@[simp] theorem State.emit_hostData (e : Event) : (s.emit e).hostData = s.hostData := rfl

/-! ## xact -/

@[simp] theorem State.xact_par (d : Desc) (w : List Byte) : (s.xact d w).par = s.par := rfl
@[simp] theorem State.xact_addr (d : Desc) (w : List Byte) : (s.xact d w).addr = s.addr := rfl
@[simp] theorem State.xact_len (d : Desc) (w : List Byte) : (s.xact d w).len = s.len := rfl
@[simp] theorem State.xact_tmo (d : Desc) (w : List Byte) : (s.xact d w).tmo = s.tmo := rfl
@[simp] theorem State.xact_tmoShort (d : Desc) (w : List Byte) : (s.xact d w).tmoShort = s.tmoShort := rfl
@[simp] theorem State.xact_busy (d : Desc) (w : List Byte) : (s.xact d w).busy = s.busy := rfl
@[simp] theorem State.xact_done (d : Desc) (w : List Byte) : (s.xact d w).done = s.done := rfl
@[simp] theorem State.xact_cmdrej (d : Desc) (w : List Byte) : (s.xact d w).cmdrej = s.cmdrej := rfl
@[simp] theorem State.xact_idv (d : Desc) (w : List Byte) : (s.xact d w).idv = s.idv := rfl
@[simp] theorem State.xact_phase (d : Desc) (w : List Byte) : (s.xact d w).phase = s.phase := rfl
@[simp] theorem State.xact_err (d : Desc) (w : List Byte) : (s.xact d w).err = s.err := rfl
@[simp] theorem State.xact_stepNo (d : Desc) (w : List Byte) : (s.xact d w).stepNo = s.stepNo := rfl
@[simp] theorem State.xact_idBytes (d : Desc) (w : List Byte) : (s.xact d w).idBytes = s.idBytes := rfl
@[simp] theorem State.xact_sr (d : Desc) (w : List Byte) : (s.xact d w).sr = s.sr := rfl
@[simp] theorem State.xact_mmoff (d : Desc) (w : List Byte) : (s.xact d w).mmoff = s.mmoff := rfl
@[simp] theorem State.xact_mmExp (d : Desc) (w : List Byte) : (s.xact d w).mmExp = s.mmExp := rfl
@[simp] theorem State.xact_mmObs (d : Desc) (w : List Byte) : (s.xact d w).mmObs = s.mmObs := rfl
@[simp] theorem State.xact_buf (d : Desc) (w : List Byte) : (s.xact d w).buf = s.buf := rfl
@[simp] theorem State.xact_opL (d : Desc) (w : List Byte) : (s.xact d w).opL = s.opL := rfl
@[simp] theorem State.xact_addrL (d : Desc) (w : List Byte) : (s.xact d w).addrL = s.addrL := rfl
@[simp] theorem State.xact_lenL (d : Desc) (w : List Byte) : (s.xact d w).lenL = s.lenL := rfl
@[simp] theorem State.xact_tmoL (d : Desc) (w : List Byte) : (s.xact d w).tmoL = s.tmoL := rfl
@[simp] theorem State.xact_tmosL (d : Desc) (w : List Byte) : (s.xact d w).tmosL = s.tmosL := rfl
@[simp] theorem State.xact_mstate (d : Desc) (w : List Byte) : (s.xact d w).mstate = s.mstate := rfl
@[simp] theorem State.xact_bt (d : Desc) (w : List Byte) : (s.xact d w).bt = s.bt ++ [s.record d w] := rfl
@[simp] theorem State.xact_ev (d : Desc) (w : List Byte) : (s.xact d w).ev = s.ev := rfl
@[simp] theorem State.xact_inbox (d : Desc) (w : List Byte) : (s.xact d w).inbox = s.inbox := rfl
@[simp] theorem State.xact_draws (d : Desc) (w : List Byte) : (s.xact d w).draws = transferDraws d s.draws := rfl
@[simp] theorem State.xact_hostData (d : Desc) (w : List Byte) : (s.xact d w).hostData = s.hostData := rfl

/-! ## mismatch -/

@[simp] theorem State.mismatch_par (k : Nat) (x y : Byte) : (s.mismatch k x y).par = s.par := rfl
@[simp] theorem State.mismatch_addr (k : Nat) (x y : Byte) : (s.mismatch k x y).addr = s.addr := rfl
@[simp] theorem State.mismatch_len (k : Nat) (x y : Byte) : (s.mismatch k x y).len = s.len := rfl
@[simp] theorem State.mismatch_tmo (k : Nat) (x y : Byte) : (s.mismatch k x y).tmo = s.tmo := rfl
@[simp] theorem State.mismatch_tmoShort (k : Nat) (x y : Byte) : (s.mismatch k x y).tmoShort = s.tmoShort := rfl
@[simp] theorem State.mismatch_busy (k : Nat) (x y : Byte) : (s.mismatch k x y).busy = s.busy := rfl
@[simp] theorem State.mismatch_done (k : Nat) (x y : Byte) : (s.mismatch k x y).done = s.done := rfl
@[simp] theorem State.mismatch_cmdrej (k : Nat) (x y : Byte) : (s.mismatch k x y).cmdrej = s.cmdrej := rfl
@[simp] theorem State.mismatch_idv (k : Nat) (x y : Byte) : (s.mismatch k x y).idv = s.idv := rfl
@[simp] theorem State.mismatch_phase (k : Nat) (x y : Byte) : (s.mismatch k x y).phase = s.phase := rfl
@[simp] theorem State.mismatch_err (k : Nat) (x y : Byte) : (s.mismatch k x y).err = s.err := rfl
@[simp] theorem State.mismatch_stepNo (k : Nat) (x y : Byte) : (s.mismatch k x y).stepNo = s.stepNo := rfl
@[simp] theorem State.mismatch_idBytes (k : Nat) (x y : Byte) : (s.mismatch k x y).idBytes = s.idBytes := rfl
@[simp] theorem State.mismatch_sr (k : Nat) (x y : Byte) : (s.mismatch k x y).sr = s.sr := rfl
@[simp] theorem State.mismatch_mmoff (k : Nat) (x y : Byte) : (s.mismatch k x y).mmoff = BitVec.ofNat 32 k := rfl
@[simp] theorem State.mismatch_mmExp (k : Nat) (x y : Byte) : (s.mismatch k x y).mmExp = x := rfl
@[simp] theorem State.mismatch_mmObs (k : Nat) (x y : Byte) : (s.mismatch k x y).mmObs = y := rfl
@[simp] theorem State.mismatch_buf (k : Nat) (x y : Byte) : (s.mismatch k x y).buf = s.buf := rfl
@[simp] theorem State.mismatch_opL (k : Nat) (x y : Byte) : (s.mismatch k x y).opL = s.opL := rfl
@[simp] theorem State.mismatch_addrL (k : Nat) (x y : Byte) : (s.mismatch k x y).addrL = s.addrL := rfl
@[simp] theorem State.mismatch_lenL (k : Nat) (x y : Byte) : (s.mismatch k x y).lenL = s.lenL := rfl
@[simp] theorem State.mismatch_tmoL (k : Nat) (x y : Byte) : (s.mismatch k x y).tmoL = s.tmoL := rfl
@[simp] theorem State.mismatch_tmosL (k : Nat) (x y : Byte) : (s.mismatch k x y).tmosL = s.tmosL := rfl
@[simp] theorem State.mismatch_mstate (k : Nat) (x y : Byte) : (s.mismatch k x y).mstate = s.mstate := rfl
@[simp] theorem State.mismatch_bt (k : Nat) (x y : Byte) : (s.mismatch k x y).bt = s.bt := rfl
@[simp] theorem State.mismatch_ev (k : Nat) (x y : Byte) : (s.mismatch k x y).ev = s.ev := rfl
@[simp] theorem State.mismatch_inbox (k : Nat) (x y : Byte) : (s.mismatch k x y).inbox = s.inbox := rfl
@[simp] theorem State.mismatch_draws (k : Nat) (x y : Byte) : (s.mismatch k x y).draws = s.draws := rfl
@[simp] theorem State.mismatch_hostData (k : Nat) (x y : Byte) : (s.mismatch k x y).hostData = s.hostData := rfl

/-! ## answer -/

@[simp] theorem State.answer_par (v : Word) : (s.answer v).par = s.par := rfl
@[simp] theorem State.answer_addr (v : Word) : (s.answer v).addr = s.addr := rfl
@[simp] theorem State.answer_len (v : Word) : (s.answer v).len = s.len := rfl
@[simp] theorem State.answer_tmo (v : Word) : (s.answer v).tmo = s.tmo := rfl
@[simp] theorem State.answer_tmoShort (v : Word) : (s.answer v).tmoShort = s.tmoShort := rfl
@[simp] theorem State.answer_busy (v : Word) : (s.answer v).busy = s.busy := rfl
@[simp] theorem State.answer_done (v : Word) : (s.answer v).done = s.done := rfl
@[simp] theorem State.answer_cmdrej (v : Word) : (s.answer v).cmdrej = s.cmdrej := rfl
@[simp] theorem State.answer_idv (v : Word) : (s.answer v).idv = s.idv := rfl
@[simp] theorem State.answer_phase (v : Word) : (s.answer v).phase = s.phase := rfl
@[simp] theorem State.answer_err (v : Word) : (s.answer v).err = s.err := rfl
@[simp] theorem State.answer_stepNo (v : Word) : (s.answer v).stepNo = s.stepNo := rfl
@[simp] theorem State.answer_idBytes (v : Word) : (s.answer v).idBytes = s.idBytes := rfl
@[simp] theorem State.answer_sr (v : Word) : (s.answer v).sr = s.sr := rfl
@[simp] theorem State.answer_mmoff (v : Word) : (s.answer v).mmoff = s.mmoff := rfl
@[simp] theorem State.answer_mmExp (v : Word) : (s.answer v).mmExp = s.mmExp := rfl
@[simp] theorem State.answer_mmObs (v : Word) : (s.answer v).mmObs = s.mmObs := rfl
@[simp] theorem State.answer_buf (v : Word) : (s.answer v).buf = s.buf := rfl
@[simp] theorem State.answer_opL (v : Word) : (s.answer v).opL = s.opL := rfl
@[simp] theorem State.answer_addrL (v : Word) : (s.answer v).addrL = s.addrL := rfl
@[simp] theorem State.answer_lenL (v : Word) : (s.answer v).lenL = s.lenL := rfl
@[simp] theorem State.answer_tmoL (v : Word) : (s.answer v).tmoL = s.tmoL := rfl
@[simp] theorem State.answer_tmosL (v : Word) : (s.answer v).tmosL = s.tmosL := rfl
@[simp] theorem State.answer_mstate (v : Word) : (s.answer v).mstate = s.mstate := rfl
@[simp] theorem State.answer_bt (v : Word) : (s.answer v).bt = s.bt := rfl
@[simp] theorem State.answer_ev (v : Word) : (s.answer v).ev = s.ev := rfl
@[simp] theorem State.answer_inbox (v : Word) : (s.answer v).inbox = s.inbox := rfl
@[simp] theorem State.answer_draws (v : Word) : (s.answer v).draws = s.draws := rfl
@[simp] theorem State.answer_hostData (v : Word) : (s.answer v).hostData = some v := rfl

end Sys2Proof.Machine
end

