-- ==== Sys2Proof/Laws/Ops.lean ====
section
/-! SUPPORT. What the shared operations can do: the buffer, the draws, the transaction primitive, host operations and the check step. -/

namespace Sys2Proof.Machine

/-! ## The buffer -/

@[simp] theorem Memory.read_nil (i : Nat) : Memory.read [] i = none := rfl

theorem Memory.read_cons (j : Nat) (c : Byte) (m : Memory) (i : Nat) :
    Memory.read ((j, c) :: m) i = if i = j then some c else m.read i := rfl

/-- A read after a write to the same index gives the byte written. -/
theorem Memory.read_write_same (m : Memory) (i : Nat) (b : Byte) : (m.write i b).read i = some b := by
  induction m with
  | nil => simp [Memory.write, Memory.read]
  | cons c m ih =>
    obtain ⟨j, c⟩ := c
    simp only [Memory.write]
    split
    · simp [Memory.read]
    · split
      · simp [Memory.read]
      · rename_i h
        simp [Memory.read, h, ih]

/-- A write leaves every other index alone. -/
theorem Memory.read_write_other (m : Memory) (i k : Nat) (b : Byte) (h : k ≠ i) :
    (m.write i b).read k = m.read k := by
  induction m with
  | nil => simp [Memory.write, Memory.read, h]
  | cons c m ih =>
    obtain ⟨j, c⟩ := c
    simp only [Memory.write]
    split
    · simp [Memory.read, h]
    · split
      · rename_i h2
        subst h2
        simp [Memory.read, h]
      · simp [Memory.read, ih]

theorem Memory.read_write (m : Memory) (i k : Nat) (b : Byte) :
    (m.write i b).read k = if k = i then some b else m.read k := by
  split
  · subst k; exact Memory.read_write_same m i b
  · exact Memory.read_write_other m i k b ‹_›

/-- What a written list reads as: the list's bytes from `i` on, and elsewhere what stood there. -/
theorem Memory.read_writeList (bs : List Byte) (m : Memory) (i k : Nat) :
    (m.writeList i bs).read k =
      if i ≤ k ∧ k < i + bs.length then some (bs.getD (k - i) 0) else m.read k := by
  induction bs generalizing m i with
  | nil => simp [Memory.writeList]
  | cons b bs ih =>
    simp only [Memory.writeList, ih, Memory.read_write, List.length_cons]
    by_cases h1 : k = i
    · subst h1; simp
    · by_cases h2 : i + 1 ≤ k ∧ k < i + 1 + bs.length
      · obtain ⟨d, rfl⟩ : ∃ d, k = i + 1 + d := ⟨k - (i + 1), by omega⟩
        have e1 : i + 1 + d - (i + 1) = d := by omega
        have e2 : i + 1 + d - i = d + 1 := by omega
        rw [if_pos h2, if_pos (by omega), e1, e2]
        simp
      · rw [if_neg h2, if_neg h1, if_neg (by omega)]

/-- Every cell of a memory after a write is the written one or stood there. -/
theorem Memory.mem_write {m : Memory} {i : Nat} {b : Byte} {c : Host.Cell} (h : c ∈ m.write i b) :
    c = (i, b) ∨ c ∈ m := by
  induction m with
  | nil => simpa [Memory.write] using h
  | cons d m ih =>
    obtain ⟨j, d⟩ := d
    simp only [Memory.write] at h
    split at h
    · simpa using h
    · split at h
      · simp only [List.mem_cons] at h ⊢; tauto
      · simp only [List.mem_cons] at h ⊢
        rcases h with h | h
        · exact .inr (.inl h)
        · exact (ih h).imp_right .inr

theorem Memory.mem_writeList {bs : List Byte} {m : Memory} {i : Nat} {c : Host.Cell}
    (h : c ∈ m.writeList i bs) : (i ≤ c.1 ∧ c.1 < i + bs.length) ∨ c ∈ m := by
  induction bs generalizing m i with
  | nil => exact .inr h
  | cons b bs ih =>
    simp only [Memory.writeList] at h
    rcases ih h with h | h
    · exact .inl (by simp only [List.length_cons]; omega)
    · rcases Memory.mem_write h with rfl | h
      · exact .inl (by simp)
      · exact .inr h

/-- The canonical form, as a fact about the first index: the rest is canonical and lies above it. -/
theorem Memory.wf_cons (c : Host.Cell) (m : Memory) :
    Memory.wf (c :: m) = true ↔ Memory.wf m = true ∧ ∀ d ∈ m, c.1 < d.1 := by
  induction m generalizing c with
  | nil => simp [Memory.wf]
  | cons d m ih =>
    simp only [Memory.wf, Bool.and_eq_true, decide_eq_true_eq, List.mem_cons, forall_eq_or_imp]
    constructor
    · rintro ⟨h1, h2⟩
      refine ⟨h2, h1, fun e he => ?_⟩
      have := ((ih d).1 h2).2 e he
      omega
    · rintro ⟨h1, h2, -⟩
      exact ⟨h2, h1⟩

/-- A write keeps the canonical form. -/
theorem Memory.wf_write {m : Memory} (i : Nat) (b : Byte) (h : m.wf = true) : (m.write i b).wf = true := by
  induction m with
  | nil => rfl
  | cons d m ih =>
    obtain ⟨j, d⟩ := d
    have hd := (Memory.wf_cons _ _).1 h
    simp only [Memory.write]
    split
    · rename_i h1
      refine (Memory.wf_cons _ _).2 ⟨h, ?_⟩
      intro e he
      rcases List.mem_cons.1 he with rfl | he
      · exact h1
      · have := hd.2 e he
        simp only at this ⊢; omega
    · split
      · rename_i h2; subst h2
        exact (Memory.wf_cons _ _).2 hd
      · refine (Memory.wf_cons _ _).2 ⟨ih hd.1, ?_⟩
        intro e he
        rcases Memory.mem_write he with rfl | he
        · simp only; omega
        · exact hd.2 e he

/-- Writing a list keeps the canonical form. -/
theorem Memory.wf_writeList {bs : List Byte} {m : Memory} {i : Nat} (h : m.wf = true) :
    (m.writeList i bs).wf = true := by
  induction bs generalizing m i with
  | nil => exact h
  | cons b bs ih => exact ih (Memory.wf_write i b h)

/-- A range reads as a list when all its bytes are written. -/
theorem Memory.readList_eq_some {m : Memory} {i n : Nat} {bs : List Byte} :
    m.readList i n = some bs ↔ bs.length = n ∧ ∀ k, k < n → m.read (i + k) = some (bs.getD k 0) := by
  induction n generalizing i bs with
  | zero =>
    simp only [Memory.readList, Option.some.injEq, Nat.not_lt_zero, false_implies, implies_true, and_true]
    rw [List.length_eq_zero_iff]; exact eq_comm
  | succ n ih =>
    simp only [Memory.readList]
    constructor
    · intro h
      split at h
      · rename_i b bs' hb hbs
        obtain rfl := Option.some.inj h
        obtain ⟨hl, hk⟩ := ih.1 hbs
        refine ⟨by simp [hl], fun k hk' => ?_⟩
        cases k with
        | zero => simpa using hb
        | succ k =>
          have := hk k (by omega)
          rw [show i + (k + 1) = i + 1 + k by omega, this]; simp
      · cases h
    · rintro ⟨hl, hk⟩
      cases bs with
      | nil => simp at hl
      | cons b bs =>
        have h0 := hk 0 (by omega)
        simp only [Nat.add_zero, List.getD_cons_zero] at h0
        have h1 : m.readList (i + 1) n = some bs := ih.2 ⟨by simpa using hl, fun k hk' => by
          have := hk (k + 1) (by omega)
          rw [show i + 1 + k = i + (k + 1) by omega, this]; simp⟩
        rw [h0, h1]

/-- A range with an unwritten byte does not read. -/
theorem Memory.readList_eq_none {m : Memory} {i n : Nat} :
    m.readList i n = none ↔ ∃ k, k < n ∧ m.read (i + k) = none := by
  induction n generalizing i with
  | zero => simp [Memory.readList]
  | succ n ih =>
    simp only [Memory.readList]
    constructor
    · intro h
      split at h
      · cases h
      · rename_i h2
        rcases hb : m.read i with _ | b
        · exact ⟨0, by omega, by simpa using hb⟩
        · rcases hbs : m.readList (i + 1) n with _ | bs
          · obtain ⟨k, hk, hn⟩ := ih.1 hbs
            exact ⟨k + 1, by omega, by rw [show i + (k + 1) = i + 1 + k by omega]; exact hn⟩
          · exact absurd hbs (h2 b bs hb)
    · rintro ⟨k, hk, hn⟩
      cases k with
      | zero => simp only [Nat.add_zero] at hn; rw [hn]
      | succ k =>
        have : m.readList (i + 1) n = none :=
          ih.2 ⟨k, by omega, by rw [show i + 1 + k = i + (k + 1) by omega]; exact hn⟩
        rw [this]
        split
        · rename_i h; cases h
        · rfl

/-! ## The draws -/

@[simp] theorem drawBytes_length (n : Nat) (rx : List Byte) (c : Nat) : (drawBytes n rx c).length = n := by
  induction n generalizing rx c with
  | zero => rfl
  | succ n ih => cases rx <;> simp [drawBytes, ih]

/-- R401: `Ok` from `receive(n)` carries exactly `n` bytes. -/
@[simp] theorem Draws.bytes_length (q : Draws) (n : Nat) : (q.bytes n).length = n := drawBytes_length _ _ _

/-- While the list lasts, the bytes received are the list's. -/
theorem drawBytes_append (l rx : List Byte) (c : Nat) : drawBytes l.length (l ++ rx) c = l := by
  induction l with
  | nil => rfl
  | cons b l ih => simp [drawBytes, ih]

/-! ## The transaction primitive -/

@[simp] theorem transfer_desc (tmo : Word) (d : Desc) (w : List Byte) (q : Draws) :
    (transfer tmo d w q).desc = d := by
  unfold transfer
  split
  · split <;> rfl
  · rfl

@[simp] theorem transfer_wdata (tmo : Word) (d : Desc) (w : List Byte) (q : Draws) :
    (transfer tmo d w q).wdata = w := by
  unfold transfer
  split
  · split <;> rfl
  · rfl

@[simp] theorem State.record_desc (s : State) (d : Desc) (w : List Byte) : (s.record d w).desc = d :=
  transfer_desc _ _ _ _

@[simp] theorem State.record_wdata (s : State) (d : Desc) (w : List Byte) : (s.record d w).wdata = w :=
  transfer_wdata _ _ _ _

/-- R410: bytes are recorded only on `Ok` of a read, and then exactly `DLEN` of them. -/
theorem transfer_rdata_length (tmo : Word) (d : Desc) (w : List Byte) (q : Draws) :
    (transfer tmo d w q).rdata.length =
      if d.dir = .read ∧ (transfer tmo d w q).outcome = .ok then d.dlen.toNat else 0 := by
  unfold transfer
  split
  · split
    · simp_all
    · simp_all
    · rename_i h; simp only [h, true_and]
      split <;> simp_all
  · rename_i r h; cases hr : q.outcome <;> simp_all

/-- What the caller of `Xact` gets (R403, R404): the bytes of a successful transaction, or the error its outcome maps to. -/
theorem BusRecord.result_cases (r : BusRecord) :
    (r.outcome = .ok ∧ r.result = .ok r.rdata) ∨ (r.outcome = .busError ∧ r.result = .err .busError) ∨
      (r.outcome = .busTimeout ∧ r.result = .err .busTimeout) := by
  unfold BusRecord.result
  cases h : r.outcome <;> simp [mapOutcome]

theorem BusRecord.result_ok {r : BusRecord} {b : List Byte} (h : r.result = .ok b) :
    r.outcome = .ok ∧ r.rdata = b := by
  rcases r.result_cases with ⟨h1, h2⟩ | ⟨h1, h2⟩ | ⟨h1, h2⟩ <;> rw [h2] at h
  · exact ⟨h1, XactResult.ok.inj h⟩
  · cases h
  · cases h

theorem BusRecord.result_err {r : BusRecord} {e : Err} (h : r.result = .err e) :
    (r.outcome = .busError ∧ e = .busError) ∨ (r.outcome = .busTimeout ∧ e = .busTimeout) := by
  rcases r.result_cases with ⟨h1, h2⟩ | ⟨h1, h2⟩ | ⟨h1, h2⟩ <;> rw [h2] at h
  · cases h
  · exact .inl ⟨h1, (XactResult.err.inj h).symm⟩
  · exact .inr ⟨h1, (XactResult.err.inj h).symm⟩

/-! ## Host operations -/

/-- A host operation's step while the block is not busy is its accept (R131). -/
theorem hostOp_accept {o : Op} {f : Pos → State → Outcome} {s : State} (h : s.busy = false) :
    hostOp o f s = .next (s.accept o) := by simp [hostOp, h]

/-- A host operation's step while it runs is its engine's (R520). -/
theorem hostOp_running {o : Op} {f : Pos → State → Outcome} {s : State} {p : Pos} (hb : s.busy = true)
    (ho : s.opL = o) (hp : s.mstate = .run p) : hostOp o f s = f p s := by
  simp [hostOp, State.running, hb, ho, hp]

/-- A request while another operation runs is rejected (R132). -/
theorem hostOp_other {o : Op} {f : Pos → State → Outcome} {s : State} (hb : s.busy = true) (ho : s.opL ≠ o) :
    hostOp o f s = .next s.reject := by
  unfold hostOp State.running
  rw [if_neg (by simp [hb])]
  cases s.mstate <;> simp [ho]

/-- What `exec` of a host operation is: its engine at its position while it runs, `accept` or `reject` otherwise. -/
theorem hostOp_cases (o : Op) (f : Pos → State → Outcome) (s : State) :
    (s.busy = false ∧ hostOp o f s = .next (s.accept o)) ∨
    (∃ p, s.busy = true ∧ s.opL = o ∧ s.mstate = .run p ∧ hostOp o f s = f p s) ∨
    (s.busy = true ∧ hostOp o f s = .next s.reject) := by
  cases hb : s.busy
  · exact .inl ⟨rfl, hostOp_accept hb⟩
  · by_cases ho : s.opL = o
    · cases hm : s.mstate with
      | idle => exact .inr (.inr ⟨rfl, by simp [hostOp, State.running, hb, hm]⟩)
      | run p => exact .inr (.inl ⟨p, rfl, ho, rfl, hostOp_running hb ho hm⟩)
    · exact .inr (.inr ⟨rfl, hostOp_other hb ho⟩)

/-- The check step answers one of two next states (R523). -/
theorem checkStep_run {next : Stmt} {s : State} {p : Pos} (h : s.mstate = .run p) :
    checkStep next s =
      if argsOk (p.opOf s.opL) s.par (s.argsAt p).a (s.argsAt p).n then .next (s.goto p next)
      else .next (s.leave p .invalidArgument) := by
  simp [checkStep, h]

end Sys2Proof.Machine
end

