-- ==== Sys2Proof/Laws/Body.lean ====
section
/-! SUPPORT. One engine step of a running operation is its body's at its position: the lemma every statement about an operation goes through, and the devices' steps at their positions. -/

namespace Sys2Proof.Machine

/-- The body of each host operation (R520). -/
def bodyOf (x : Op) : Stmt → State → Outcome :=
  match x with
  | .reset => resetBody
  | .readId => readIdBody
  | .en4b => en4bBody
  | .writeEnable => writeEnableBody
  | .waitBusy => waitBusyBody
  | .erase => eraseBody
  | .program => programBody
  | .read => readBody
  | .verifyErased => verifyErasedBody
  | .verifyData => verifyDataBody
  | .selftest | .reserved0 | .reservedC | .reservedD | .reservedE | .reservedF => reservedBody

/-- A host operation at a statement of its own body. -/
theorem exec_run_op {s : State} {m : Stmt} (hb : s.busy = true) (hp : s.mstate = .run (.op m))
    (hm : ∀ e, m ≠ .finish e) : exec s.opL.instr s = bodyOf s.opL m s := by
  have hstep : ∀ f : Stmt → State → Outcome, opStep f (.op m) s = f m s := fun f => by
    cases m <;> first | rfl | exact absurd rfl (hm _)
  cases ho : s.opL <;>
    simp only [Op.instr, exec, execReset, execReadId, execEn4b, execWriteEnable, execWaitBusy, execErase,
      execProgram, execRead, execVerifyErased, execVerifyData, execSelftest, execReserved0, execReservedC,
      execReservedD, execReservedE, execReservedF, hostOp_running hb ho hp, hstep, bodyOf]
  rfl

/-- SELFTEST at a statement of a sub-operation's body (R612). -/
theorem exec_run_sub {s : State} {k : Sub} {m : Stmt} (hb : s.busy = true) (ho : s.opL = .selftest)
    (hp : s.mstate = .run (.sub k m)) : exec s.opL.instr s = bodyOf k.op m s := by
  rw [ho]
  simp only [Op.instr, exec, execSelftest, hostOp_running hb ho hp, selftestStep]
  cases k <;> rfl

/-- SELFTEST at a statement of its own (R610). -/
theorem exec_run_seq {s : State} {q : Seq} (hb : s.busy = true) (ho : s.opL = .selftest)
    (hp : s.mstate = .run (.seq q)) : exec s.opL.instr s = .next (seqStep q s) := by
  rw [ho]
  simp only [Op.instr, exec, execSelftest, hostOp_running hb ho hp, selftestStep]

/-- An operation at its own `finish` (R522). -/
theorem exec_run_finish {s : State} {e : Err} (hb : s.busy = true) (ho : s.opL ≠ .selftest)
    (hp : s.mstate = .run (.op (.finish e))) : exec s.opL.instr s = .next (s.finish e) := by
  cases h : s.opL <;>
    first
    | exact absurd h ho
    | (simp only [Op.instr, exec, execReset, execReadId, execEn4b, execWriteEnable, execWaitBusy, execErase,
        execProgram, execRead, execVerifyErased, execVerifyData, execReserved0, execReservedC,
        execReservedD, execReservedE, execReservedF, hostOp_running hb h hp, opStep])

/-- The engine in the body of `x`, as host operation or as SELFTEST's sub-operation. -/
theorem exec_inBody {s : State} {x : Op} {m : Stmt} {p : Pos} (h : s.inBody x m p)
    (hm : ∀ e, m ≠ .finish e) : exec s.opL.instr s = bodyOf x m s := by
  obtain ⟨hb, hp, ⟨rfl, rfl⟩ | ⟨k, rfl, rfl, ho⟩⟩ := h
  · exact exec_run_op hb hp hm
  · exact exec_run_sub hb ho hp

/-- The operation whose body the position is in. -/
theorem State.inBody.opOf {s : State} {x : Op} {m : Stmt} {p : Pos} (h : s.inBody x m p) :
    p.opOf s.opL = x := by
  obtain ⟨-, -, ⟨rfl, rfl⟩ | ⟨k, rfl, rfl, ho⟩⟩ := h <;> rfl

theorem State.inBody.mstate {s : State} {x : Op} {m : Stmt} {p : Pos} (h : s.inBody x m p) :
    s.mstate = .run p := h.2.1

theorem State.inBody.args {s : State} {x : Op} {m : Stmt} {p : Pos} (h : s.inBody x m p) :
    s.args = s.argsAt p := by simp [State.args, h.2.1]

/-- What the position issues depends on the body and the statement only. -/
theorem State.inBody.issues {s : State} {x : Op} {m : Stmt} {p : Pos} (h : s.inBody x m p) :
    p.issues s.opL = (Pos.op m).issues x := by
  obtain ⟨-, -, ⟨rfl, rfl⟩ | ⟨k, rfl, rfl, ho⟩⟩ := h <;> rfl

/-- The device instruction the engine waits for, from the body and the statement. -/
theorem State.inBody.awaits {s : State} {x : Op} {m : Stmt} {p : Pos} {name : DevName} (h : s.inBody x m p)
    (hi : (Pos.op m).issues x = some name) : s.awaits name = some p := by
  simp [State.awaits, h.2.1, h.issues, hi]

/-- A host operation's step while the block is not busy is its accept (R131). -/
theorem exec_accept {s : State} (o : Op) (hb : s.busy = false) : exec o.instr s = .next (s.accept o) := by
  cases o <;> exact hostOp_accept hb

/-- The positions a running operation can be at: in a body, at SELFTEST's own statements, or at its own `finish`. -/
theorem legal_cases {s : State} {p : Pos} (hb : s.busy = true) (hp : s.mstate = .run p)
    (hl : p.legal s.opL = true) :
    (∃ x m, s.inBody x m p ∧ bodyStmt x m = true) ∨ (∃ q, p = .seq q ∧ s.opL = .selftest) ∨
      ∃ e, p = .op (.finish e) ∧ s.opL ≠ .selftest ∧ mayRaise s.opL e = true := by
  cases p with
  | op m =>
    by_cases hf : ∃ e, m = .finish e
    · obtain ⟨e, rfl⟩ := hf
      simp only [Pos.legal, Bool.and_eq_true, bne_iff_ne] at hl
      exact .inr (.inr ⟨e, rfl, hl⟩)
    · refine .inl ⟨s.opL, m, ⟨hb, hp, .inl ⟨rfl, rfl⟩⟩, ?_⟩
      cases m <;> first | exact hl | exact absurd ⟨_, rfl⟩ hf
  | sub k m =>
    simp only [Pos.legal, Bool.and_eq_true, beq_iff_eq] at hl
    exact .inl ⟨k.op, m, ⟨hb, hp, .inr ⟨k, rfl, rfl, hl.1⟩⟩, hl.2⟩
  | seq q =>
    refine .inr (.inl ⟨q, rfl, ?_⟩)
    cases q <;> simp only [Pos.legal, Bool.and_eq_true, beq_iff_eq] at hl <;>
      first | exact hl | exact hl.1

/-- A poll whose transaction failed (R458). -/
theorem pollFrom_err {s : State} {p : Pos} {t0 : Word} {e : Err}
    (h : (s.record (s.desc .rdsr 0 0) []).result = .err e) :
    s.pollFrom p t0 = (s.xact (s.desc .rdsr 0 0) []).pollFail p e := by
  simp only [State.pollFrom, h]

/-- A poll whose byte satisfies the predicate (R452): no sample is taken. -/
theorem pollFrom_done {s : State} {p : Pos} {t0 : Word} {b : List Byte}
    (h : (s.record (s.desc .rdsr 0 0) []).result = .ok b)
    (hp : pollPred s.par (p.opOf s.opL) (b.headD 0) = true) :
    s.pollFrom p t0 = State.pollDone { s.xact (s.desc .rdsr 0 0) [] with sr := b.headD 0 } p := by
  simp only [State.pollFrom, h, hp, if_true]

/-- A poll whose byte does not satisfy the predicate (R452, R453): the sample comes after the poll. -/
theorem pollFrom_again {s : State} {p : Pos} {t0 : Word} {b : List Byte}
    (h : (s.record (s.desc .rdsr 0 0) []).result = .ok b)
    (hp : pollPred s.par (p.opOf s.opL) (b.headD 0) = false) :
    s.pollFrom p t0 = (State.afterNow { s.xact (s.desc .rdsr 0 0) [] with sr := b.headD 0 }).pollAgain p t0
      (transferDraws (s.desc .rdsr 0 0) s.draws).now := by
  simp only [State.pollFrom, h, hp, Bool.false_eq_true, if_false, State.xact]

/-- A transaction's record is well formed when its row's data length and write data are (R308, R403, R406, R410). -/
theorem recordOk_transfer (p : Params) (tmo : Word) (name : DevName) (a n : Word) (w : List Byte) (q : Draws)
    (hn : name = .read4 ∨ name = .pp4 → n ≠ 0) (hw : w.length = if name = .pp4 then n.toNat else 0) :
    RecordOk p (transfer tmo (mkDesc p.ins name a n) w q) := by
  refine ⟨⟨name, a, n, transfer_desc _ _ _ _⟩, ?_, ?_, ?_⟩
  · cases name <;> simp [Desc.wf, mkDesc, DevName.adw, DevName.dir, Config.srLen, Config.idLen, Config.readDummy] <;>
      exact hn (by simp)
  · rw [transfer_desc, transfer_wdata, hw]
    cases name <;> simp [mkDesc, DevName.dir]
  · rw [transfer_rdata_length, transfer_desc]

/-- `FirstMismatch` finds the least differing offset (R604). -/
theorem firstMismatch_some (rd xs : List Byte) (j k : Nat) (hl : rd.length = xs.length) (hk : k < rd.length)
    (hne : rd.getD k 0 ≠ xs.getD k 0) (hlt : ∀ i, i < k → rd.getD i 0 = xs.getD i 0) :
    firstMismatch rd xs j = some (j + k, xs.getD k 0, rd.getD k 0) := by
  induction rd generalizing xs j k with
  | nil => simp at hk
  | cons y rd ih =>
    cases xs with
    | nil => simp at hl
    | cons x xs =>
      simp only [firstMismatch]
      cases k with
      | zero => rw [if_neg (by simpa using hne)]; rfl
      | succ k =>
        rw [if_pos (by simpa using hlt 0 (by omega)),
          ih xs (j + 1) k (by simpa using hl) (by simpa using hk) (by simpa using hne)
            (fun i hi => by simpa using hlt (i + 1) (by omega))]
        simp
        omega

/-- `FirstMismatch` finds nothing when the bytes agree (R604). -/
theorem firstMismatch_none (rd xs : List Byte) (j : Nat) (hl : rd.length = xs.length)
    (h : ∀ i, i < rd.length → rd.getD i 0 = xs.getD i 0) : firstMismatch rd xs j = none := by
  obtain rfl : rd = xs := List.ext_getElem hl fun i h1 h2 => by simpa [h1, h2] using h i h1
  clear hl h
  induction rd generalizing j with
  | nil => rfl
  | cons y rd ih => simp [firstMismatch, ih]

/-- The sequencer's next step with a poll at `p` (R452). -/
theorem execRdsr_inBody {s : State} {x : Op} {c : Option PollTimes} {p : Pos} (h : s.inBody x (.poll c) p) :
    execRdsr s = .next (match c with
      | some c => s.pollFrom p c.t0
      | none => s.afterNow.pollFrom p s.draws.now) := by
  obtain ⟨-, hp, ⟨rfl, rfl⟩ | ⟨k, rfl, rfl, ho⟩⟩ := h <;> cases c <;> simp [execRdsr, hp]

end Sys2Proof.Machine
end

