-- ==== Sys2Proof/Laws/Device.lean ====
section
/-! SUPPORT. What the device contract says of one event, and the whole-contract facts of R229, R801 and R812. -/

namespace Sys2Proof.Machine

@[simp] theorem Device.disarm_flash (d : Device) : d.disarm.flash = d.flash := rfl
@[simp] theorem Device.disarm_wip (d : Device) : d.disarm.wip = d.wip := rfl
@[simp] theorem Device.disarm_wel (d : Device) : d.disarm.wel = d.wel := rfl
@[simp] theorem Device.disarm_mode4 (d : Device) : d.disarm.mode4 = d.mode4 := rfl
@[simp] theorem Device.disarm_standing (d : Device) : d.disarm.standing = d.standing := rfl
@[simp] theorem Device.disarm_cycle (d : Device) : d.disarm.cycle = d.cycle := rfl
@[simp] theorem Device.disarm_goal (d : Device) : d.disarm.goal = d.goal := rfl
@[simp] theorem Device.disarm_programmed (d : Device) : d.disarm.programmed = d.programmed := rfl
@[simp] theorem Device.complete_flash (d : Device) : d.complete.flash = d.goal := rfl
@[simp] theorem Device.complete_programmed (d : Device) : d.complete.programmed = d.goalProgrammed := rfl
@[simp] theorem Device.complete_wip (d : Device) : d.complete.wip = false := rfl
@[simp] theorem Device.complete_wel (d : Device) : d.complete.wel = (d.wel && !d.cycle) := rfl
@[simp] theorem Device.complete_mode4 (d : Device) : d.complete.mode4 = d.mode4 := rfl
@[simp] theorem Device.complete_standing (d : Device) : d.complete.standing = d.standing := rfl
@[simp] theorem Device.settle_flash (d : Device) : d.settle.flash = d.flash := rfl
@[simp] theorem Device.settle_programmed (d : Device) : d.settle.programmed = d.programmed := rfl
@[simp] theorem Device.settle_wip (d : Device) : d.settle.wip = d.wip := rfl
@[simp] theorem Device.settle_mode4 (d : Device) : d.settle.mode4 = d.mode4 := rfl

/-- A bound device obeys the contract in a transaction that returned `Ok`. -/
theorem Device.answers_bound {p : Params} {cap : Nat} {d d' : Device} {name : DevName} {r : BusRecord}
    (hs : d.standing = .bound) (ok : r.outcome = .ok) (h : d.answers p cap name r d') :
    d.obeys p cap name r d' := by
  have := h.2 ok
  rwa [hs] at this

/-- A marked span: inside it the mark is `v`. -/
theorem markSpan_in {m : Word → Bool} {a b : Word} {n : Nat} {v : Bool} (h : inSpan a n b) :
    markSpan m a n v b = v := if_pos h

/-- A marked span: outside it the marks stay. -/
theorem markSpan_out {m : Word → Bool} {a b : Word} {n : Nat} {v : Bool} (h : ¬ inSpan a n b) :
    markSpan m a n v b = m b := if_neg h

/-- R816: once a PP4 was accepted, no byte of its span is one that PP4's contract covers, while its cycle runs and after it. -/
theorem Device.programs_uncovers {p : Params} {cap : Nat} {d d' : Device} {a n b : Word} {w : List Byte}
    (hm : d.mode4 = true) (hr : programRange p a n = true) (hc : withinCapacity cap a n.toNat)
    (h : d.programs p cap a n w d') (hb : inSpan a n.toNat b) :
    ¬ d'.erasedAt p b ∧ ¬ d'.complete.erasedAt p b := by
  obtain ⟨_, -, _, -, rfl⟩ := h hm hr hc
  simp [erasedAt, complete, markSpan_in hb]

/-- R816, I9: over a span with a byte that was programmed before, PP4 may leave any contents there, whatever that byte's value. -/
theorem Device.programs_again {p : Params} {cap : Nat} {d : Device} {a n b : Word} {w : List Byte}
    {goal : Word → Byte} (hb : inSpan a n.toNat b) (hp : d.programmed b = true)
    (ho : ∀ c, ¬ inSpan a n.toNat c → goal c = d.flash c) :
    d.programs p cap a n w { d with
      armed := false, wip := true, cycle := true, goal := goal
      programmed := markSpan d.programmed a n.toNat true
      goalProgrammed := markSpan d.programmed a n.toNat true } :=
  fun _ _ _ => ⟨goal, fun h => absurd ((h b hb).2.symm.trans hp) (by decide), d.flash, fun c hc => ⟨rfl, ho c hc⟩, rfl⟩

/-- R816, R225: an erase that completes makes every byte of its subsector one that PP4's contract covers. -/
theorem Device.erases_covers {p : Params} {cap : Nat} {d d' : Device} {a b : Word}
    (hm : d.mode4 = true) (ha : a.toNat % p.subsectorSize.toNat = 0)
    (hc : withinCapacity cap a p.subsectorSize.toNat) (h : d.erases p cap a d')
    (hb : inSpan a p.subsectorSize.toNat b) : d'.complete.erasedAt p b := by
  obtain ⟨goal, hg, _, -, rfl⟩ := h hm ha hc
  exact ⟨hg b hb, markSpan_in hb⟩

/-- An idle device meets the next transaction as it is. -/
theorem DeviceContract.xact_idle {p : Params} {cap : Nat} {d e : Device} {name : DevName} {r : BusRecord}
    {evs : List DeviceEvent} (hw : d.wip = false) (h : DeviceContract p cap d (.xact name r :: evs) e) :
    ∃ d1, d.answers p cap name r d1 ∧ DeviceContract p cap d1 evs e := by
  cases h with
  | complete _ _ _ busy _ => rw [hw] at busy; cases busy
  | xact _ d1 _ _ _ _ ha h => exact ⟨d1, ha, h⟩

/-- A device meets the next transaction as it is, or, when it is busy, after its cycle. -/
theorem DeviceContract.xact_cases {p : Params} {cap : Nat} {d e : Device} {name : DevName} {r : BusRecord}
    {evs : List DeviceEvent} (h : DeviceContract p cap d (.xact name r :: evs) e) :
    (∃ d1, d.answers p cap name r d1 ∧ DeviceContract p cap d1 evs e) ∨
      (d.wip = true ∧ ∃ d1, d.complete.answers p cap name r d1 ∧ DeviceContract p cap d1 evs e) := by
  cases h with
  | complete _ _ _ busy h => exact .inr ⟨busy, DeviceContract.xact_idle rfl h⟩
  | xact _ d1 _ _ _ _ ha h => exact .inl ⟨d1, ha, h⟩

/-- R229: RSTEN followed by RST leaves `Flash`, whether or not the device was busy, and also once a cycle that outlasts the reset completes. -/
theorem Device.reset_keeps_flash {p : Params} {cap : Nat} {d d1 d2 : Device} {r1 r2 : BusRecord}
    (hs : d.standing = .bound) (ok1 : r1.outcome = .ok) (ok2 : r2.outcome = .ok)
    (h1 : d.answers p cap .rsten r1 d1) (h2 : d1.answers p cap .rst r2 d2) :
    d2.flash = d.flash ∧ d2.complete.flash = d.flash ∧ d2.mode4 = false ∧ d2.standing = .settling := by
  obtain rfl : d1 = { d with armed := true } := answers_bound hs ok1 h1
  obtain ⟨hf, hg, -, -, hm, -, hst⟩ := answers_bound (d := { d with armed := true }) hs ok2 h2 rfl
  exact ⟨hf, hg, hm, hst⟩

/-- R801, R229: RSTEN followed by RST brings a lost device back to its settle time. -/
theorem Device.reset_recovers {p : Params} {cap : Nat} {d d1 d2 : Device} {r1 r2 : BusRecord}
    (hs : d.standing = .lost) (ok1 : r1.outcome = .ok) (ok2 : r2.outcome = .ok)
    (h1 : d.answers p cap .rsten r1 d1) (h2 : d1.answers p cap .rst r2 d2) :
    d2.standing = .settling ∧ d2.settle.standing = .bound ∧ d2.mode4 = false := by
  have h1 := h1.2 ok1
  rw [hs] at h1
  obtain ⟨ha, hl⟩ : d1.armed = true ∧ d1.standing = .lost := h1
  have h2 := h2.2 ok2
  rw [hl] at h2
  obtain ⟨-, -, -, -, hm, -, hst⟩ := h2 ha
  exact ⟨hst, by simp [settle, hst], hm⟩

/-- R812: a set WEL outlasts WREN, EN4B, the polls and the reads of a bound idle device. -/
theorem Device.wel_kept {p : Params} {cap : Nat} {d d' : Device} {name : DevName} {r : BusRecord}
    (hs : d.standing = .bound) (hw : d.wip = false) (hl : d.wel = true) (ok : r.outcome = .ok)
    (hn : name = .wren ∨ name = .en4b ∨ name = .rdsr ∨ name = .rdid) (h : d.answers p cap name r d') :
    d'.wel = true ∧ (d'.wip = true → d'.complete.wel = true) := by
  have h := answers_bound hs ok h
  rcases hn with rfl | rfl | rfl | rfl
  · obtain rfl := h hw; exact ⟨rfl, fun h => by simp [hw] at h⟩
  · obtain ⟨w, rfl⟩ := (h hw).2 hl; simp [hl]
  · obtain rfl := h.1; simp [hl, hw]
  · obtain rfl : d' = d.disarm := h; simp [hl, hw]

/-- R801: a block reset that falls during an operation is one the device is shown, and one that falls between operations is not. -/
theorem State.deviceEvents_rst {s t : State} {q : List Input} (h : s.inbox = .rst :: q) :
    s.deviceEvents t = if s.busy then [.blockReset] else [] := by simp [deviceEvents, h]

/-- A host access shows the device nothing. -/
theorem State.deviceEvents_host {s t : State} {a : HostAccess} {q : List Input} (h : s.inbox = .host a :: q) :
    s.deviceEvents t = [] := by simp [deviceEvents, h]

/-- An engine step at a transaction shows the device the record it appended, with its row. -/
theorem State.deviceEvents_xact {s t : State} {p : Pos} {name : DevName} {r : BusRecord}
    (hi : s.inbox = [] ∨ ∃ q, s.inbox = .engine :: q) (hp : s.mstate = .run p)
    (hn : p.issues s.opL = some name) (hb : t.bt = s.bt ++ [r]) : s.deviceEvents t = [.xact name r] := by
  have hd : ∀ q, p ≠ .seq q := by rintro q rfl; cases hn
  rcases hi with hi | ⟨q, hi⟩ <;> cases p <;>
    first
    | exact absurd rfl (hd _)
    | simp [deviceEvents, hi, hp, hn, hb]

end Sys2Proof.Machine
end

