-- ==== Sys2Proof/Laws/PerInstr.lean ====
section
/-! SUPPORT. Statements about every instruction as syntax: what it encodes to. -/

namespace Sys2Proof.Laws.Descriptor

/-- A well-formed instruction encodes to one word (Format H, R301) or three (Format B, R305), and its descriptor, if it has one, meets R308 and is the formatter's for its row (R407). -/
def Statement (i : Instr) : Prop :=
  ∀ p : Params, i.wf p = true →
    (encode p.ins i).length = (if i.op.isSome then 1 else 3) ∧
    ∀ d, i.desc p.ins = some d → d.wf = true ∧ ∃ name a n, d = mkDesc p.ins name a n

/-- A host operation has no descriptor. -/
theorem of_host {i : Instr} (ho : i.op.isSome = true) (hd : i.device = none) : Statement i := by
  intro p _
  obtain ⟨o, ho⟩ := Option.isSome_iff_exists.1 ho
  simp [encode, Instr.desc, hd, ho]

/-- A device instruction's descriptor is the formatter's. -/
theorem of_device {i : Instr} {name : DevName} {a n : Word} (ho : i.op = none) (hd : i.device = some (name, a, n))
    (h : ∀ p : Params, i.wf p = true → (mkDesc p.ins name a n).wf = true) : Statement i := by
  intro p hp
  simp only [encode, Instr.desc, hd, ho, Option.map_some, Desc.words, Option.isSome_none, Bool.false_eq_true,
    if_false, List.length_cons, List.length_nil, true_and, Option.some.injEq, forall_eq']
  exact ⟨h p hp, name, a, n, rfl⟩

theorem reset : Statement .reset := of_host rfl rfl

theorem readId : Statement .readId := of_host rfl rfl

theorem en4b : Statement .en4b := of_host rfl rfl

theorem writeEnable : Statement .writeEnable := of_host rfl rfl

theorem waitBusy : Statement .waitBusy := of_host rfl rfl

theorem erase : Statement .erase := of_host rfl rfl

theorem program : Statement .program := of_host rfl rfl

theorem read : Statement .read := of_host rfl rfl

theorem verifyErased : Statement .verifyErased := of_host rfl rfl

theorem verifyData : Statement .verifyData := of_host rfl rfl

theorem selftest : Statement .selftest := of_host rfl rfl

theorem reserved0 : Statement .reserved0 := of_host rfl rfl

theorem reservedC : Statement .reservedC := of_host rfl rfl

theorem reservedD : Statement .reservedD := of_host rfl rfl

theorem reservedE : Statement .reservedE := of_host rfl rfl

theorem reservedF : Statement .reservedF := of_host rfl rfl

theorem rsten : Statement .rsten := of_device rfl rfl fun _ _ => rfl

theorem rst : Statement .rst := of_device rfl rfl fun _ _ => rfl

theorem rdid : Statement .rdid := of_device rfl rfl fun _ _ => rfl

theorem rdsr : Statement .rdsr := of_device rfl rfl fun _ _ => rfl

theorem wren : Statement .wren := of_device rfl rfl fun _ _ => rfl

theorem en4bBus : Statement .en4bBus := of_device rfl rfl fun _ _ => rfl

theorem se4 (a : Word) : Statement (.se4 a) := of_device rfl rfl fun _ _ => rfl

theorem pp4 (a n : Word) : Statement (.pp4 a n) := of_device rfl rfl fun p hp => by
  have hn : n ≠ 0 := by rintro rfl; simp [Instr.wf, programRange] at hp
  simp [mkDesc, Desc.wf, DevName.adw, DevName.dir, Config.readDummy]
  exact hn

theorem read4 (a n : Word) : Statement (.read4 a n) := of_device rfl rfl fun p hp => by
  have hn : n ≠ 0 := by rintro rfl; simp [Instr.wf, readRange] at hp
  simp [mkDesc, Desc.wf, DevName.adw, DevName.dir, Config.readDummy]
  exact hn

end Sys2Proof.Laws.Descriptor
end

