-- ==== Sys2Proof/Tests/Slice0.lean ====
section
/-! SUPPORT. Well-formedness smoke tests, decoding of words written out from the spec, one-step tests from 95_test_vectors.md, and a witness for the hypotheses of every statement. -/

namespace Sys2Proof.Tests

open Sys2Proof Sys2Proof.Machine

/-! ## Small states -/

/-- A small instance that meets R14: pages of 4 bytes, subsectors of 8, a buffer of 8. -/
def tiny : Params :=
  { Config.standard with
    base := 0x40000000, tBusMs := 7, tWelMs := 5, pageSize := 4, subsectorSize := 8, bufSize := 8 }

/-- An idle block with given answers to come; `BUF[0..4)` holds the pattern of the source's scenario. -/
def idle (bus : List BusOutcome) (rx : List Byte) (tick : List Word) : State :=
  { State.reset with
    par := tiny, addr := 0x10, len := 4, tmo := 10
    buf := [(0, 0xA5), (1, 0xA4), (2, 0xA7), (3, 0xA6)]
    draws := { bus := bus, rx := rx, tick := tick, next := 0 } }

/-- A block running `o` at position `p`, with the operands latched. -/
def running (o : Op) (p : Pos) (s : State) : State :=
  { s with busy := true, opL := o, mstate := .run p, addrL := s.addr, lenL := s.len, tmoL := s.tmo, tmosL := s.tmo }

/-- The block with one input waiting. -/
def given (i : Input) (s : State) : State := { s with inbox := [i] }

/-- Whether an outcome is a next state with a property. -/
def after (o : Outcome) (f : State → Bool) : Bool :=
  match o with
  | .next t => f t
  | .fault _ => false
  | .refused _ => false

/-- Whether an outcome is this fault. -/
def faults (o : Outcome) (x : Fault) : Bool :=
  match o with
  | .fault y => decide (y = x)
  | _ => false

/-- Whether an outcome is this refusal. -/
def refuses (o : Outcome) (x : Refusal) : Bool :=
  match o with
  | .refused y => decide (y = x)
  | _ => false

/-! ## WellFormed refuses an ill-formed term, for each check -/

theorem test_wf_se4_unaligned : Instr.wf Config.standard (.se4 0x00001800) = false := by decide
theorem test_wf_se4_unchecked :
    Instr.wf { Config.standard with eraseAlignCheck := false } (.se4 0x00001800) = true := by decide
theorem test_wf_pp4_empty : Instr.wf Config.standard (.pp4 0x00001000 0) = false := by decide
theorem test_wf_pp4_long : Instr.wf Config.standard (.pp4 0x00001000 257) = false := by decide
theorem test_wf_pp4_crosses_page : Instr.wf Config.standard (.pp4 0x000010FF 2) = false := by decide
theorem test_wf_pp4_page_edge : Instr.wf Config.standard (.pp4 0xFFFFFF00 256) = true := by decide
theorem test_wf_read4_empty : Instr.wf Config.standard (.read4 0x00001000 0) = false := by decide
theorem test_wf_read4_past_top : Instr.wf Config.standard (.read4 0xFFFFFFFF 2) = false := by decide
theorem test_wf_read4_at_top : Instr.wf Config.standard (.read4 0xFFFFF000 4096) = true := by decide
theorem test_wf_desc_address_without_width :
    Desc.wf { instr := 0x66, adw := false, dir := .none, dummy := 0, addr := 1, dlen := 0 } = false := by decide
theorem test_wf_desc_length_without_direction :
    Desc.wf { instr := 0x66, adw := false, dir := .none, dummy := 0, addr := 0, dlen := 1 } = false := by decide
theorem test_wf_desc_direction_without_length :
    Desc.wf { instr := 0x05, adw := false, dir := .read, dummy := 0, addr := 0, dlen := 0 } = false := by decide
theorem test_wf_desc_dummy :
    Desc.wf { instr := 0x66, adw := false, dir := .none, dummy := 8, addr := 0, dlen := 0 } = false := by decide
theorem test_wf_params_page : Params.wf { tiny with pageSize := 3 } = false := by decide
theorem test_wf_params_buffer : Params.wf { tiny with bufSize := 3 } = false := by decide
theorem test_wf_params_subsector : Params.wf { tiny with subsectorSize := 2 } = false := by decide
theorem test_wf_params_bits : Params.wf { tiny with welBit := 0 } = false := by decide
theorem test_wf_params_standard : Config.standard.wf = true ∧ tiny.wf = true := by decide
theorem test_distinct_refuses : InsBytes.distinct { Config.defaultIns with rst := 0x66 } = false := by decide

/-! ## Decoding: words written out from R302 and R310 -/

/-- R302, bit by bit: `OP` is bits [3:0]. -/
theorem test_decode_host_words :
    decodeCmd (0b00000000000000000000000000000001#32) = .reset ∧
    decodeCmd (0b00000000000000000000000000000010#32) = .readId ∧
    decodeCmd (0b00000000000000000000000000000011#32) = .en4b ∧
    decodeCmd (0b00000000000000000000000000000100#32) = .writeEnable ∧
    decodeCmd (0b00000000000000000000000000000101#32) = .waitBusy ∧
    decodeCmd (0b00000000000000000000000000000110#32) = .erase ∧
    decodeCmd (0b00000000000000000000000000000111#32) = .program ∧
    decodeCmd (0b11111111111111111111111111111000#32) = .read ∧
    decodeCmd (0b00000000000000000000000000001001#32) = .verifyErased ∧
    decodeCmd (0b00000000000000000000000000001010#32) = .verifyData ∧
    decodeCmd (0b00000000000000000000000000001011#32) = .selftest ∧
    decodeCmd (0b00000000000000000000000000000000#32) = .reserved0 ∧
    decodeCmd (0b00000000000000000000000000001100#32) = .reservedC ∧
    decodeCmd (0b00000000000000000000000000001101#32) = .reservedD ∧
    decodeCmd (0b00000000000000000000000000001110#32) = .reservedE ∧
    decodeCmd (0b00000000000000000000000000001111#32) = .reservedF := by decide

/-- R305 and R310 with the default bytes: DUMMY, DIR, ADW, INSTR, written out. -/
theorem test_decode_bus_words :
    decode Config.defaultIns .bus [0b00000000000000000000000001100110#32, 0, 0] = .ok .rsten ∧
    decode Config.defaultIns .bus [0b00000000000000000000000010011001#32, 0, 0] = .ok .rst ∧
    decode Config.defaultIns .bus [0b00000000000000000000001010011111#32, 0, 3] = .ok .rdid ∧
    decode Config.defaultIns .bus [0b00000000000000000000001000000101#32, 0, 1] = .ok .rdsr ∧
    decode Config.defaultIns .bus [0b00000000000000000000000000000110#32, 0, 0] = .ok .wren ∧
    decode Config.defaultIns .bus [0b00000000000000000000000010110111#32, 0, 0] = .ok .en4bBus ∧
    decode Config.defaultIns .bus [0b00000000000000000000000100100001#32, 0x1000, 0] = .ok (.se4 0x1000) ∧
    decode Config.defaultIns .bus [0b00000000000000000000010100010010#32, 0x1000, 0x100] =
      .ok (.pp4 0x1000 0x100) ∧
    decode Config.defaultIns .bus [0b00000000000000000000001100010011#32, 0x1000, 0x1000] =
      .ok (.read4 0x1000 0x1000) := by decide

/-- Reserved and unknown descriptors are refused by name. -/
theorem test_decode_refuses :
    decode Config.defaultIns .bus [0x00000600, 0, 1] = .error .reservedDir ∧
    decode Config.defaultIns .bus [0x00010066, 0, 0] = .error .reservedBits ∧
    decode Config.defaultIns .bus [0x00000866, 0, 0] = .error .dummyCycles ∧
    decode Config.defaultIns .bus [0x00000077, 0, 0] = .error .unknownInstruction ∧
    decode Config.defaultIns .bus [0x00000166, 0, 0] = .error .unknownInstruction ∧
    decode Config.defaultIns .bus [0x00000066, 1, 0] = .error .badOperandWord ∧
    decode Config.defaultIns .bus [0x0000029F, 0, 4] = .error .badOperandWord ∧
    decode Config.defaultIns .bus [0x00000066] = .error .wrongLength ∧
    decode Config.defaultIns .host [] = .error .wrongLength := by decide

/-- The words of the opcode table; the table's WREN word is ERASE's command word (log 6). -/
theorem test_table_words :
    decodeTableWord 32 0x66 = some .rsten ∧ decodeTableWord 32 0x99 = some .rst ∧
    decodeTableWord 32 0x29F = some .rdid ∧ decodeTableWord 32 0x205 = some .rdsr ∧
    decodeTableWord 32 0xB7 = some .en4bBus ∧ decodeTableWord 32 0x121 = some (.se4 0) ∧
    decodeTableWord 32 0x512 = some (.pp4 0 0) ∧ decodeTableWord 32 0x313 = some (.read4 0 0) ∧
    decodeTableWord 32 0x6 = some .erase ∧ decodeTableWord 32 0xFFFFFFF8 = some .read := by decide

/-- A placed word is the one the next step runs. -/
theorem test_placed_word_runs :
    after (step ((idle [.ok, .ok] [1, 2, 3] []).withFetchWord 32 0x29F)) (fun t => t.bt.length == 1) = true ∧
    after (step (State.reset.withFetchWord 32 0x8)) (fun t => t.busy && t.opL == .read) = true := by decide

/-! ## One step, from 95_test_vectors.md -/

/-- 95, frequently used STATUS values: accept leaves 0x00000001. -/
theorem test_accept : after (exec .erase (idle [] [] [])) (fun t => t.status == 0x1 && t.addrL == 0x10) = true := by
  decide
/-- 2.5.1: a command while busy sets only CMDREJ. -/
theorem test_reject : after (step (given (.host (.write 0 .word 1)) (running .waitBusy (.op (.poll none)) (idle [] [] []))))
    (fun t => t.status == 0x5) = true := by decide
/-- 2.1.2: a reserved code ends INVALID_ARGUMENT. -/
theorem test_reserved_ends : after (execTimes 2 .reserved0 (idle [] [] [])) (fun t => t.status == 0x402 && t.bt.isEmpty) = true := by
  decide
/-- 2.2.1: RSTEN fails. -/
theorem test_reset_rsten_fails :
    after (exec .reset (running .reset (.op .rsten) (idle [.busTimeout] [] []))) (fun t =>
      t.mstate == .run (.op (.finish .busTimeout)) && t.bt.length == 1) = true := by decide
/-- 2.4.1: RST with `Ok` moves PHASE to IDLE. -/
theorem test_reset_rst :
    after (exec .reset (running .reset (.op .rst) { idle [.ok] [] [] with phase := .deviceBusy })) (fun t =>
      t.phase == .idle && t.mstate == .run (.op (.finish .ok))) = true := by decide
/-- 2.2.7: the identity, manufacturer lowest. -/
theorem test_read_id :
    after (exec .readId (running .readId (.op .rdid) (idle [.ok, .ok] [0x11, 0x22, 0x33] []))) (fun t =>
      t.readReg .id == 0x00332211 && t.idv) = true := by decide
/-- 2.2.6: a failed receive keeps ID. -/
theorem test_read_id_fails :
    after (exec .readId (running .readId (.op .rdid) { idle [.ok, .busError] [] [] with idBytes := 0x332211 }))
      (fun t => t.idBytes == 0x332211 && t.mstate == .run (.op (.finish .busError))) = true := by decide
/-- ERASE trace of 2.4: the WREN step reads 0x11. -/
theorem test_wren_step :
    after (exec .erase (running .erase (.op .wren) (idle [.ok] [] []))) (fun t => t.status == 0x11) = true := by decide
/-- ERASE trace of 2.4: the poll step (0x02) reads 0x21. -/
theorem test_wel_poll_step :
    after (exec .erase (running .erase (.op (.poll none)) { idle [.ok, .ok] [2] [0] with phase := .wePending }))
      (fun t => t.status == 0x21 && t.mstate == .run (.op .issue)) = true := by decide
/-- ERASE trace of 2.4: the SE4 step reads 0x41. -/
theorem test_erase_command :
    after (exec .erase (running .erase (.op .command) (idle [.ok] [] []))) (fun t =>
      t.status == 0x41 && t.bt.map (fun r => (r.desc.instr, r.desc.addr, r.desc.dlen)) == [(0x21, 0x10, 0)]) = true := by
  decide
/-- 2.4.8, scaled: an unaligned erase address is refused by the check. -/
theorem test_erase_unaligned :
    after (exec .erase (running .erase (.op .check) { idle [] [] [] with addr := 0x14, len := 8 })) (fun t =>
      t.mstate == .run (.op (.finish .invalidArgument)) && t.bt.isEmpty) = true := by decide
/-- 2.3.1: timeout 0, one poll, TIMEOUT. -/
theorem test_wait_zero_timeout :
    after (exec .waitBusy (running .waitBusy (.op (.poll none)) { idle [.ok, .ok] [1] [50, 50] with tmo := 0 }))
      (fun t => t.sr == 1 && t.mstate == .run (.op (.finish .timeout))) = true := by decide
/-- 2.3.8: `elapsed` across the wrap is 2, so a third poll follows. -/
theorem test_wait_wraps :
    after (exec .waitBusy (running .waitBusy (.op (.poll (some ⟨0xFFFFFFFE, 0xFFFFFFFF⟩)))
      { idle [.ok, .ok] [1] [0] with tmo := 3 })) (fun t =>
      t.mstate == .run (.op (.poll (some ⟨0xFFFFFFFE, 0⟩)))) = true := by decide
/-- 2.4.12: PROGRAM of an unwritten byte faults. -/
theorem test_program_unwritten :
    faults (exec .program (running .program (.op .command) { idle [.ok, .ok] [] [] with buf := [(0, 1), (1, 2), (2, 3)] }))
      .unwrittenBuf = true := by decide
/-- 2.2.3: PP4's transmit fails. -/
theorem test_program_transmit_fails :
    after (exec .program (running .program (.op .command) (idle [.ok, .busError] [] []))) (fun t =>
      t.phase == .idle && t.bt.map (fun r => (r.wdata, r.calls.length)) == [([0xA5, 0xA4, 0xA7, 0xA6], 2)]) = true := by
  decide
/-- 2.2.5: READ fills BUF, little-endian to a word read. -/
theorem test_read_fills :
    after (exec .read (running .read (.op .read4) (idle [.ok, .ok] [0xDE, 0xAD, 0xBE, 0xEF] []))) (fun t =>
      after (step (given (.host (.read 0x100 .word)) t)) (fun u => u.hostData == some 0xEFBEADDE)) = true := by decide
/-- 2.6.4: VERIFY_ERASED of one wrong byte. -/
theorem test_verify_erased_mismatch :
    after (exec .verifyErased (running .verifyErased (.op (.compare [0xFE])) { idle [] [] [] with len := 1 })) (fun t =>
      t.mmoff == 0 && t.mmdata == 0x0000FEFF && t.mstate == .run (.op (.finish .verifyMismatch))) = true := by decide
/-- 2.6.7: VERIFY_DATA of a wrong byte 3. -/
theorem test_verify_data_mismatch :
    after (exec .verifyData (running .verifyData (.op (.compare [0xA5, 0xA4, 0xA7, 0xFF])) (idle [] [] []))) (fun t =>
      t.mmoff == 3 && t.mmdata == 0x0000FFA6) = true := by decide
/-- 2.6.24: the settle wait ends at `elapsed` = 2. -/
theorem test_settle :
    after (exec .selftest (running .selftest (.seq (.settle 0x100)) (idle [] [] [0x102]))) (fun t =>
      t.mstate == .run (.seq (.pass .one)) && t.bt.isEmpty) = true := by decide
/-- 2.6.19: the event of a failed verify carries the three diagnostics. -/
theorem test_fail_event :
    after (exec .selftest (running .selftest (.seq (.fail .five .verifyMismatch))
      { idle [] [] [] with mmoff := 7, mmExp := 0xFF, mmObs := 0 })) (fun t =>
      t.ev.map (fun e => (e.offset, e.expected, e.observed)) == [(some 7, some 0xFF, some 0)]) = true := by decide
/-- 2.5.6, 2.5.7, 2.5.8, 2.5.9: host accesses that return 0, are refused, or fault. -/
theorem test_host_accesses :
    after (step (given (.host (.read 0x040 .word)) (idle [] [] []))) (fun t => t.hostData == some 0) = true ∧
    refuses (step (given (.host (.read 0x014 .byte)) (idle [] [] []))) .registerAccess = true ∧
    refuses (step (given (.host (.write 0x102 .word 0)) (idle [] [] []))) .bufAccess = true ∧
    faults (step (given (.host (.read 0x105 .byte)) (idle [] [] []))) .unwrittenBuf = true := by decide
/-- 2.5.10: a word write is little-endian. -/
theorem test_buf_little_endian :
    after (step (given (.host (.write 0x100 .word 0x44332211)) (idle [] [] []))) (fun t =>
      t.buf.read 1 == some 0x22) = true := by decide
/-- 2.7.5: block reset keeps BT. -/
theorem test_block_reset :
    after (step (given .rst (running .erase (.op .issue) (idle [] [] [])))) (fun t =>
      t.status == 0 && t.buf.isEmpty && t.mstate == .idle && t.bt.isEmpty) = true := by decide

/-- R316's `erase_region(start, length)`: its accesses, in order. -/
theorem test_pseudo_erase_region :
    (Pseudo.expand 1 (.eraseRegion 0x2000 0x1000)).map HostLine.access =
      [some (.write 0x004 .word 0x2000), some (.write 0x008 .word 0x1000), some (.write 0x000 .word 6),
       some (.read 0x014 .word)] := by decide

/-! ## Witnesses: concrete states that meet the hypotheses of each statement -/

/-- A running state with no trace meets the invariant when these checks pass. -/
theorem inv_running {s : State} (p : Pos) (hp : s.mstate = .run p) (ht : s.bt = [])
    (h : (s.par.wf && s.busy && !s.done && s.err == .ok && s.buf.wf && s.buf.all (fun c => c.1 < s.par.bufSize)
      && p.legal s.opL && decide (s.stepNo ≤ 9) && (phaseAt s.opL p).all (fun f => s.phase == f)
      && (stepAt p).all (fun n => s.stepNo == n)
      && (match p with
        | .op m | .sub _ m => !m.checked || argsOk (p.opOf s.opL) s.par (s.argsAt p).a (s.argsAt p).n
        | .seq _ => true)
      && (match p with
        | .op (.compare rd) | .sub _ (.compare rd) => rd.length == (s.argsAt p).n.toNat
        | _ => true)) = true) : Inv s := by
  simp only [Bool.and_eq_true, Bool.not_eq_true', beq_iff_eq, List.all_eq_true, decide_eq_true_eq] at h
  obtain ⟨⟨⟨⟨⟨⟨⟨⟨⟨⟨⟨hw, hb⟩, hd⟩, he⟩, hm⟩, hr⟩, hl⟩, hs⟩, hf⟩, hn⟩, ha⟩, hc⟩ := h
  refine ⟨hw, by simp [hb, hp], by simp [hd], fun _ => he, by simp [hd], hm, hr, by simp [hp], ?_, by simp [ht]⟩
  intro q hq
  rw [hp] at hq
  obtain rfl := MState.run.inj hq
  refine ⟨hl, fun f h1 => ?_, fun n h1 => ?_, hs, ?_, ?_⟩
  · simpa [h1] using hf
  · simpa [h1] using hn
  · rintro m (rfl | ⟨k, rfl⟩) h1 <;> simpa [h1] using ha
  · rintro rd (rfl | ⟨k, rfl⟩) <;> simpa using hc

/-- ERASE about to send WREN. -/
def atWren : State := running .erase (.op .wren) { idle [.ok] [] [] with len := 8 }
/-- EN4B about to send its command. -/
def atCommand : State := running .en4b (.op .command) { idle [.ok] [] [] with phase := .cmdIssued }
/-- PROGRAM about to send four bytes, the last unwritten. -/
def atUnwritten : State :=
  running .program (.op .command)
    { idle [.ok, .ok] [] [] with phase := .cmdIssued, buf := [(0, 1), (1, 2), (2, 3)] }
/-- READ at its last statement. -/
def atFinish : State := running .read (.op (.finish .busError)) (idle [] [] [])
/-- SELFTEST's first poll of step 3. -/
def atSelftestPoll : State :=
  running .selftest (.sub .en4b3 (.poll none)) { idle [.ok, .ok] [2] [0] with phase := .wePending, stepNo := 3 }
/-- SELFTEST emitting step 2's event. -/
def atPass : State := running .selftest (.seq (.pass .two)) { idle [] [] [] with stepNo := 2 }

theorem inv_atWren : Inv atWren := inv_running _ rfl rfl (by decide)
theorem inv_atCommand : Inv atCommand := inv_running _ rfl rfl (by decide)
theorem inv_atUnwritten : Inv atUnwritten := inv_running _ rfl rfl (by decide)
theorem inv_atFinish : Inv atFinish := inv_running _ rfl rfl (by decide)
theorem inv_atSelftestPoll : Inv atSelftestPoll := inv_running _ rfl rfl (by decide)
theorem inv_atPass : Inv atPass := inv_running _ rfl rfl (by decide)

theorem witness_DecodeEncodeRoundTrip : Config.defaultIns.distinct = true ∧ tiny.ins.distinct = true := by decide

theorem witness_DecodedDescriptorIsExact :
    decode Config.defaultIns .bus [0x00000121, 0x00001000, 0] = .ok (.se4 0x00001000) := by decide

theorem witness_BlockResetState : (given .rst atWren).inbox = .rst :: [] := rfl

theorem witness_StatusFields : Inv atFinish := inv_atFinish

/-- The first and the last register. -/
theorem witness_HostReadsRegisters :
    (given (.host (.read 0x000 .word)) atWren).inbox = .host (.read Reg.cmd.offset .word) :: [] ∧
    (given (.host (.read 0x024 .word)) atWren).inbox = .host (.read Reg.mmdata.offset .word) :: [] := ⟨rfl, rfl⟩

/-- Each clause, with the largest value. -/
theorem witness_HostWritesRegisters :
    (given (.host (.write 0x004 .word 0xFFFFFFFF)) atWren).inbox = .host (.write 0x004 .word 0xFFFFFFFF) :: [] ∧
    (given (.host (.write 0x008 .word 0xFFFFFFFF)) atWren).inbox = .host (.write 0x008 .word 0xFFFFFFFF) :: [] ∧
    (given (.host (.write 0x00C .word 0xFFFFFFFF)) atWren).inbox = .host (.write 0x00C .word 0xFFFFFFFF) :: [] ∧
    (given (.host (.write 0x010 .word 0xFFFFFFFF)) atWren).inbox = .host (.write 0x010 .word 0xFFFFFFFF) :: [] ∧
    (given (.host (.write 0x024 .word 0xFFFFFFFF)) atWren).inbox =
      .host (.write Reg.mmdata.offset .word 0xFFFFFFFF) :: [] ∧
    (given (.host (.write 0x000 .word 0xFFFFFFFF)) atWren).inbox = .host (.write 0x000 .word 0xFFFFFFFF) :: [] :=
  ⟨rfl, rfl, rfl, rfl, rfl, rfl⟩

/-- The first unmapped offset, the last below BUF, the first past BUF, and the last of the window. -/
theorem witness_UnmappedOffsets :
    (0x28 ≤ (0x028 : BitVec 16).toNat ∧ (0x028 : BitVec 16).toNat + Width.word.bytes ≤ 0x100) ∧
    (0x28 ≤ (0x0FF : BitVec 16).toNat ∧ (0x0FF : BitVec 16).toNat + Width.byte.bytes ≤ 0x100) ∧
    0x100 + atWren.par.bufSize ≤ (0x108 : BitVec 16).toNat ∧
    0x100 + atWren.par.bufSize ≤ (0xFFFF : BitVec 16).toNat ∧
    (given (.host (.read 0x028 .word)) atWren).inbox = .host (.read 0x028 .word) :: [] ∧
    (given (.host (.write 0xFFFF .word 1)) atWren).inbox = .host (.write 0xFFFF .word 1) :: [] := by decide

/-- The last byte of the registers, and a misaligned word. -/
theorem witness_RegisterAccessWidth :
    (0x027 : BitVec 16).toNat < 0x28 ∧ Width.byte ≠ .word ∧ (0x026 : BitVec 16).toNat < 0x28 ∧
    (0x026 : BitVec 16).toNat % 4 ≠ 0 ∧
    (given (.host (.read 0x027 .byte)) atWren).inbox = .host (.read 0x027 .byte) :: [] ∧
    (given (.host (.write 0x026 .word 1)) atWren).inbox = .host (.write 0x026 .word 1) :: [] := by decide

/-- Each clause: from below BUF into it, misaligned, past the end of a 6-byte buffer, busy, and the last aligned word. -/
theorem witness_BufWrites :
    (0x28 ≤ (0x0FF : BitVec 16).toNat ∧ 0x100 < (0x0FF : BitVec 16).toNat + Width.half.bytes ∧
      (0x0FF : BitVec 16).toNat < 0x100 ∧
      (given (.host (.write 0x0FF .half 1)) atWren).inbox = .host (.write 0x0FF .half 1) :: []) ∧
    (0x100 ≤ (0x101 : BitVec 16).toNat ∧ (0x101 : BitVec 16).toNat < 0x100 + tiny.bufSize ∧
      (0x101 : BitVec 16).toNat % Width.half.bytes ≠ 0) ∧
    ((0x104 : BitVec 16).toNat < 0x100 + 6 ∧ 0x100 + 6 < (0x104 : BitVec 16).toNat + Width.word.bytes) ∧
    ((0x104 : BitVec 16).toNat % Width.word.bytes = 0 ∧
      (0x104 : BitVec 16).toNat + Width.word.bytes ≤ 0x100 + tiny.bufSize) ∧
    atWren.busy = true ∧ (idle [] [] []).busy = false ∧ (idle [] [] []).par = tiny ∧ atWren.par = tiny ∧
    (given (.host (.write 0x104 .word 1)) atWren).inbox = .host (.write 0x104 .word 1) :: [] := by
  refine ⟨by decide, by decide, by decide, by decide, rfl, rfl, rfl, rfl, rfl⟩

/-- Each clause: from below BUF into it, misaligned, an unwritten byte, and four written ones. -/
theorem witness_BufReads :
    (0x28 ≤ (0x0FD : BitVec 16).toNat ∧ 0x100 < (0x0FD : BitVec 16).toNat + Width.word.bytes ∧
      (0x0FD : BitVec 16).toNat < 0x100 ∧
      (given (.host (.read 0x0FD .word)) atWren).inbox = .host (.read 0x0FD .word) :: []) ∧
    (0x101 : BitVec 16).toNat % Width.half.bytes ≠ 0 ∧
    ((0x104 : BitVec 16).toNat % Width.word.bytes = 0 ∧
      (0x104 : BitVec 16).toNat + Width.word.bytes ≤ 0x100 + tiny.bufSize ∧
      0 < Width.word.bytes ∧ (idle [] [] []).buf.read (0x104 - 0x100 + 0) = none) ∧
    (∀ k, k < Width.word.bytes → (idle [] [] []).buf.read (0x100 - 0x100 + k) =
      some (([0xA5, 0xA4, 0xA7, 0xA6] : List Byte).getD k 0)) ∧
    (given (.host (.read 0x104 .word)) (idle [] [] [])).inbox = .host (.read 0x104 .word) :: [] := by decide

theorem witness_AcceptLatchesOperands : (idle [] [] []).busy = false := rfl

theorem witness_RejectWhileBusy :
    (given (.host (.write 0x000 .word 1)) atWren).busy = true ∧
    (given (.host (.write 0x000 .word 1)) atWren).inbox = .host (.write 0x000 .word 1) :: [] := ⟨rfl, rfl⟩

theorem witness_StepRunsDecodedInstruction :
    ((idle [] [] []).busy = false ∧
      (given (.host (.write 0x000 .word 6)) (idle [] [] [])).inbox = .host (.write 0x000 .word 6) :: []) ∧
    ((given .engine atWren).runs .erase (.op .wren) ∧ (given .engine atWren).inbox = .engine :: []) ∧
    (atWren.runs .erase (.op .wren) ∧ atWren.inbox = []) ∧
    ((given .engine (idle [] [] [])).mstate = .idle ∧ (given .engine (idle [] [] [])).inbox = .engine :: []) ∧
    ((idle [] [] []).mstate = .idle ∧ (idle [] [] []).inbox = []) :=
  ⟨⟨rfl, rfl⟩, ⟨⟨rfl, rfl, rfl⟩, rfl⟩, ⟨⟨rfl, rfl, rfl⟩, rfl⟩, ⟨rfl, rfl⟩, rfl, rfl⟩

theorem witness_EngineStepRunsDeviceInstruction :
    atWren.runs .erase (.op .wren) ∧ (Pos.op .wren).legal .erase = true ∧ atWren.busInstr = some .wren :=
  ⟨⟨rfl, rfl, rfl⟩, rfl, rfl⟩

theorem witness_DeviceInstructionIsOneTransaction :
    (idle [] [] []).buf.readList 0 (4 : Word).toNat = some [0xA5, 0xA4, 0xA7, 0xA6] ∧
    (idle [] [] []).buf.readList 0 (0 : Word).toNat = some [] := by decide

theorem witness_ProgramOfUnwrittenDataFaults :
    3 < (4 : Word).toNat ∧ atUnwritten.buf.read 3 = none := by decide

theorem witness_DeviceInstructionFrame :
    (∃ t, exec .rdsr atSelftestPoll = .next t) ∧ (∃ t, exec (.pp4 0x10 4) (idle [] [] []) = .next t) ∧
    Instr.op .rdsr = none ∧ ∀ a n, Instr.rdsr ≠ .read4 a n := ⟨⟨_, rfl⟩, ⟨_, rfl⟩, rfl, by simp⟩

theorem witness_ReadFrame : ∃ t, exec (.read4 0x10 4) (running .read (.op .read4) (idle [] [] [])) = .next t :=
  ⟨_, rfl⟩

theorem witness_FinishEndsTheOperation :
    (Op.read ≠ .selftest ∧ atFinish.runs .read (.op (.finish .busError))) ∧
    (running .selftest (.seq (.finish .ok)) (idle [] [] [])).runs .selftest (.seq (.finish .ok)) :=
  ⟨⟨by decide, ⟨rfl, rfl, rfl⟩⟩, rfl, rfl, rfl⟩

theorem witness_ResetSendsRstenThenRst :
    (running .reset (.op .rsten) (idle [] [] [])).inBody .reset .rsten (.op .rsten) ∧
    (running .selftest (.sub .reset1 .rst) (idle [] [] [])).inBody .reset .rst (.sub .reset1 .rst) :=
  ⟨⟨rfl, rfl, .inl ⟨rfl, rfl⟩⟩, rfl, rfl, .inr ⟨.reset1, rfl, rfl, rfl⟩⟩

/-- READ_ID at its transaction, with three bytes to come, and with a failing call to come. -/
theorem witness_ReadIdStoresIdentity :
    let s := running .readId (.op .rdid) (idle [.ok, .ok] [1, 2, 3] [])
    let u := running .selftest (.sub .readId2 .rdid) (idle [.busError] [] [])
    (s.inBody .readId .rdid (.op .rdid) ∧
      (transfer s.par.tBusMs (mkDesc s.par.ins .rdid 0 0) [] s.draws).result = .ok [1, 2, 3]) ∧
    (u.inBody .readId .rdid (.sub .readId2 .rdid) ∧
      (transfer u.par.tBusMs (mkDesc u.par.ins .rdid 0 0) [] u.draws).result = .err .busError) :=
  ⟨⟨⟨rfl, rfl, .inl ⟨rfl, rfl⟩⟩, rfl⟩, ⟨rfl, rfl, .inr ⟨.readId2, rfl, rfl, rfl⟩⟩, rfl⟩

theorem witness_WriteEnableHandshakeBegins :
    atWren.inBody .erase .wren (.op .wren) ∧
    (running .selftest (.sub .program6 .wren) (idle [] [] [])).inBody .program .wren (.sub .program6 .wren) :=
  ⟨⟨rfl, rfl, .inl ⟨rfl, rfl⟩⟩, rfl, rfl, .inr ⟨.program6, rfl, rfl, rfl⟩⟩

/-- Each clause of the poll: an error, WEL seen, the deadline just reached, and just not reached. -/
theorem witness_PollLoop :
    let s0 := running .waitBusy (.op (.poll none)) (idle [.busTimeout] [] [5])
    let s1 := atSelftestPoll
    let s2 := running .waitBusy (.op (.poll (some ⟨0, 1⟩))) (idle [.ok, .ok] [1] [10])
    let s3 := running .waitBusy (.op (.poll (some ⟨0, 1⟩))) (idle [.ok, .ok] [1] [9])
    let d := mkDesc Config.defaultIns .rdsr 0 0
    (s0.inBody .waitBusy (.poll none) (.op (.poll none)) ∧
      (transfer 7 d [] s0.draws.afterNow).result = .err .busTimeout) ∧
    (s1.inBody .en4b (.poll none) (.sub .en4b3 (.poll none)) ∧
      (transfer 7 d [] s1.draws.afterNow).result = .ok [2] ∧ (2 : Byte).getLsbD tiny.welBit.val = true) ∧
    (s2.inBody .waitBusy (.poll (some ⟨0, 1⟩)) (.op (.poll (some ⟨0, 1⟩))) ∧
      (transfer 7 d [] s2.draws).result = .ok [1] ∧ (1 : Byte).getLsbD tiny.wipBit.val ≠ false ∧
      (10 : Word).toNat ≤ (elapsed 0 (transferDraws d s2.draws).now).toNat) ∧
    (s3.inBody .waitBusy (.poll (some ⟨0, 1⟩)) (.op (.poll (some ⟨0, 1⟩))) ∧
      (transfer 7 d [] s3.draws).result = .ok [1] ∧
      (elapsed 0 (transferDraws d s3.draws).now).toNat < (10 : Word).toNat) :=
  ⟨⟨⟨rfl, rfl, .inl ⟨rfl, rfl⟩⟩, rfl⟩, ⟨⟨rfl, rfl, .inr ⟨.en4b3, rfl, rfl, rfl⟩⟩, by decide, by decide⟩,
    ⟨⟨rfl, rfl, .inl ⟨rfl, rfl⟩⟩, by decide, by decide, by decide⟩, ⟨rfl, rfl, .inl ⟨rfl, rfl⟩⟩, by decide, by decide⟩

theorem witness_ZeroTimeoutMakesOnePoll :
    let s := running .waitBusy (.op (.poll none)) { idle [.ok, .ok] [1] [50, 50] with tmo := 0 }
    s.inBody .waitBusy (.poll none) (.op (.poll none)) ∧ (s.argsAt (.op (.poll none))).t = 0 :=
  ⟨⟨rfl, rfl, .inl ⟨rfl, rfl⟩⟩, rfl⟩

theorem witness_GapWaitStep :
    (running .waitBusy (.op (.gap ⟨0, 1⟩)) { idle [] [] [2] with par := { tiny with pollGapMs := 1 } }).inBody
      .waitBusy (.gap ⟨0, 1⟩) (.op (.gap ⟨0, 1⟩)) := ⟨rfl, rfl, .inl ⟨rfl, rfl⟩⟩

/-- The argument checks at their limits: a whole subsector, a page to its last byte, the buffer's size, and the top of the address space; and one past each. -/
theorem witness_ArgumentChecks :
    (running .erase (.op .check) (idle [] [] [])).inBody .erase .check (.op .check) ∧
    argsOk .erase tiny 0x10 8 = true ∧ argsOk .erase tiny 0x14 8 = false ∧
    argsOk .program tiny 0x13 1 = true ∧ argsOk .program tiny 0x13 2 = false ∧
    argsOk .read tiny 0xFFFFFFF8 8 = true ∧ argsOk .read tiny 0 9 = false ∧
    argsOk .verifyErased tiny 0xFFFFFFFF 1 = true ∧ argsOk .verifyErased tiny 0xFFFFFFFF 2 = false ∧
    argsOk .verifyData tiny 0x10 0 = false :=
  ⟨⟨rfl, rfl, .inl ⟨rfl, rfl⟩⟩, by decide, by decide, by decide, by decide, by decide, by decide, by decide,
    by decide, by decide⟩

theorem witness_MutatingCommand :
    (running .selftest (.sub .erase4 .issue) (idle [] [] [])).inBody .erase .issue (.sub .erase4 .issue) ∧
    (running .program (.op .command) (idle [] [] [])).inBody .program .command (.op .command) ∧
    (running .program (.op .command) (idle [] [] [])).buf.readList 0 4 = some [0xA5, 0xA4, 0xA7, 0xA6] ∧
    atCommand.inBody .en4b .command (.op .command) :=
  ⟨⟨rfl, rfl, .inr ⟨.erase4, rfl, rfl, rfl⟩⟩, ⟨rfl, rfl, .inl ⟨rfl, rfl⟩⟩, rfl, rfl, rfl, .inl ⟨rfl, rfl⟩⟩

theorem witness_ReadFillsBuf :
    let s := running .read (.op .read4) (idle [.ok, .ok] [1, 2, 3, 4] [])
    let u := running .read (.op .read4) (idle [.ok, .busError] [] [])
    (s.inBody .read .read4 (.op .read4) ∧
      (transfer 7 (mkDesc Config.defaultIns .read4 0x10 4) [] s.draws).result = .ok [1, 2, 3, 4]) ∧
    (u.inBody .read .read4 (.op .read4) ∧
      (transfer 7 (mkDesc Config.defaultIns .read4 0x10 4) [] u.draws).result = .err .busError) :=
  ⟨⟨⟨rfl, rfl, .inl ⟨rfl, rfl⟩⟩, by decide⟩, ⟨rfl, rfl, .inl ⟨rfl, rfl⟩⟩, by decide⟩

theorem witness_VerifyReadsTheSpan :
    (running .verifyData (.op .read4) (idle [] [] [])).inBody .verifyData .read4 (.op .read4) ∧
    (running .selftest (.sub .verifyErased5 .read4) (idle [] [] [])).inBody .verifyErased .read4
      (.sub .verifyErased5 .read4) :=
  ⟨⟨rfl, rfl, .inl ⟨rfl, rfl⟩⟩, rfl, rfl, .inr ⟨.verifyErased5, rfl, rfl, rfl⟩⟩

/-- The last offset differs; and no offset differs. -/
theorem witness_VerifyErasedCompare :
    let s := running .verifyErased (.op (.compare [0xFF, 0xFF, 0xFF, 0xFE])) (idle [] [] [])
    let u := running .verifyErased (.op (.compare [0xFF, 0xFF, 0xFF, 0xFF])) (idle [] [] [])
    (s.inBody .verifyErased (.compare [0xFF, 0xFF, 0xFF, 0xFE]) (.op (.compare [0xFF, 0xFF, 0xFF, 0xFE])) ∧
      (s.argsAt (.op (.compare [0xFF, 0xFF, 0xFF, 0xFE]))).n.toNat = 4 ∧
      ([0xFF, 0xFF, 0xFF, 0xFE] : List Byte).getD 3 0 ≠ tiny.erasedByte ∧
      ∀ j, j < 3 → ([0xFF, 0xFF, 0xFF, 0xFE] : List Byte).getD j 0 = tiny.erasedByte) ∧
    (u.inBody .verifyErased (.compare [0xFF, 0xFF, 0xFF, 0xFF]) (.op (.compare [0xFF, 0xFF, 0xFF, 0xFF])) ∧
      ∀ j, j < 4 → ([0xFF, 0xFF, 0xFF, 0xFF] : List Byte).getD j 0 = tiny.erasedByte) :=
  ⟨⟨⟨rfl, rfl, .inl ⟨rfl, rfl⟩⟩, rfl, by decide, by decide⟩, ⟨rfl, rfl, .inl ⟨rfl, rfl⟩⟩, by decide⟩

/-- An unwritten byte; a differing last byte; and equal bytes. -/
theorem witness_VerifyDataCompare :
    (running .verifyData (.op (.compare [0xA5, 0xA4, 0xA7, 0xFF])) (idle [] [] [])).inBody .verifyData
      (.compare [0xA5, 0xA4, 0xA7, 0xFF]) (.op (.compare [0xA5, 0xA4, 0xA7, 0xFF])) ∧
    (3 < 4 ∧ atUnwritten.buf.read 3 = none) ∧
    (∀ k, k < 4 → (idle [] [] []).buf.read k = some (([0xA5, 0xA4, 0xA7, 0xA6] : List Byte).getD k 0)) ∧
    (([0xA5, 0xA4, 0xA7, 0xFF] : List Byte).getD 3 0 ≠ ([0xA5, 0xA4, 0xA7, 0xA6] : List Byte).getD 3 0 ∧
      ∀ j, j < 3 → ([0xA5, 0xA4, 0xA7, 0xFF] : List Byte).getD j 0 =
        ([0xA5, 0xA4, 0xA7, 0xA6] : List Byte).getD j 0) :=
  ⟨⟨rfl, rfl, .inl ⟨rfl, rfl⟩⟩, by decide, by decide, by decide, by decide⟩

theorem witness_SelftestOwnSteps :
    (running .selftest (.seq (.setStep .nine)) (idle [] [] [])).runs .selftest (.seq (.setStep .nine)) ∧
    (running .selftest (.seq .settleStart) (idle [] [] [])).runs .selftest (.seq .settleStart) ∧
    (running .selftest (.seq (.settle 0x100)) (idle [] [] [])).runs .selftest (.seq (.settle 0x100)) ∧
    atPass.runs .selftest (.seq (.pass .two)) ∧
    (running .selftest (.seq (.fail .five .verifyMismatch)) (idle [] [] [])).runs .selftest
      (.seq (.fail .five .verifyMismatch)) :=
  ⟨⟨rfl, rfl, rfl⟩, ⟨rfl, rfl, rfl⟩, ⟨rfl, rfl, rfl⟩, ⟨rfl, rfl, rfl⟩, rfl, rfl, rfl⟩

theorem witness_SelftestSequence : Err.busError ≠ .ok ∧ Sub.erase4 = .erase4 := by decide

theorem witness_ResetRuns :
    (idle [.ok, .ok] [] []).busy = false ∧ (idle [.ok, .ok] [] []).draws.bus = .ok :: .ok :: [] := ⟨rfl, rfl⟩

/-- Two polls before the deadline of 5 and one at it. -/
theorem witness_WriteEnableTimesOut :
    let s := idle [.ok, .ok, .ok, .ok, .ok, .ok, .ok] [0, 1, 0xFD] [0, 3, 4, 5]
    s.busy = false ∧ s.par.pollGapMs = 0 ∧ ([3, 4] : List Word).length = ([0, 1] : List Byte).length ∧
    s.draws.bus = .ok :: (List.replicate (2 * (([0, 1] : List Byte).length + 1)) .ok ++ []) ∧
    s.draws.rx = [0, 1] ++ 0xFD :: [] ∧ s.draws.tick = 0 :: ([3, 4] ++ 5 :: []) ∧
    (∀ x, x ∈ ([0, 1] : List Byte) ++ [0xFD] → x.getLsbD s.par.welBit.val = false) ∧
    (∀ x, x ∈ ([3, 4] : List Word) → (elapsed 0 x).toNat < s.par.tWelMs.toNat) ∧
    s.par.tWelMs.toNat ≤ (elapsed 0 5).toNat := by
  intro s
  refine ⟨rfl, rfl, rfl, by decide, by decide, by decide, ?_, ?_, by decide⟩
  · simp only [List.cons_append, List.nil_append, List.forall_mem_cons, List.not_mem_nil, false_implies,
      implies_true, and_true]
    decide
  · simp only [List.forall_mem_cons, List.not_mem_nil, false_implies, implies_true, and_true]
    decide

theorem witness_EraseRuns :
    let s := { idle [.ok, .ok, .ok, .ok] [2] [0] with len := 8 }
    s.busy = false ∧ argsOk .erase s.par s.addr s.len = true ∧ s.draws.bus = .ok :: .ok :: .ok :: .ok :: [] ∧
    s.draws.rx = 2 :: [] ∧ s.draws.tick = 0 :: [] ∧ (2 : Byte).getLsbD s.par.welBit.val = true := by decide

theorem witness_ProgramRuns :
    let s := idle [.ok, .ok, .ok, .ok, .ok] [2] [0]
    s.busy = false ∧ argsOk .program s.par s.addr s.len = true ∧
    s.buf.readList 0 s.len.toNat = some [0xA5, 0xA4, 0xA7, 0xA6] ∧
    s.draws.bus = .ok :: .ok :: .ok :: .ok :: .ok :: [] ∧ s.draws.rx = 2 :: [] ∧ s.draws.tick = 0 :: [] ∧
    (2 : Byte).getLsbD s.par.welBit.val = true := by decide

theorem witness_ReservedCodesRun : (idle [] [] []).busy = false := rfl

theorem witness_ReadIdRuns :
    let s := idle [.ok, .ok] [0x11, 0x22, 0x33] []
    s.busy = false ∧ s.draws.bus = .ok :: .ok :: [] ∧ s.draws.rx = 0x11 :: 0x22 :: 0x33 :: [] := by decide

theorem witness_HandshakeOperationsRun :
    let s := idle [.ok, .ok, .ok, .ok] [2] [0]
    s.busy = false ∧ s.draws.bus = .ok :: .ok :: .ok :: .ok :: [] ∧ s.draws.rx = 2 :: [] ∧
    s.draws.tick = 0 :: [] ∧ (2 : Byte).getLsbD s.par.welBit.val = true := by decide

theorem witness_WaitBusyRuns :
    let s := idle [.ok, .ok] [0xFE] []
    s.busy = false ∧ s.draws.bus = .ok :: .ok :: [] ∧ s.draws.rx = 0xFE :: [] ∧
    (0xFE : Byte).getLsbD s.par.wipBit.val = false := by decide

theorem witness_ReadRuns :
    let s := idle [.ok, .ok] [1, 2, 3, 4] []
    s.busy = false ∧ argsOk .read s.par s.addr s.len = true ∧ ([1, 2, 3, 4] : List Byte).length = s.len.toNat ∧
    s.draws.bus = .ok :: .ok :: [] ∧ s.draws.rx = [1, 2, 3, 4] ++ [] := by decide

theorem witness_VerifyRuns :
    let s := idle [.ok, .ok] [0xFF, 0xFF, 0xFF, 0xFF] []
    let u := idle [.ok, .ok] [0xA5, 0xA4, 0xA7, 0xA6] []
    (s.busy = false ∧ [0xFF, 0xFF, 0xFF, 0xFF] = List.replicate s.len.toNat s.par.erasedByte ∧
      argsOk .verifyErased s.par s.addr s.len = true ∧ s.draws.bus = .ok :: .ok :: [] ∧
      s.draws.rx = [0xFF, 0xFF, 0xFF, 0xFF] ++ []) ∧
    (u.busy = false ∧ u.buf.readList 0 u.len.toNat = some [0xA5, 0xA4, 0xA7, 0xA6] ∧
      argsOk .verifyData u.par u.addr u.len = true ∧ u.draws.bus = .ok :: .ok :: [] ∧
      u.draws.rx = [0xA5, 0xA4, 0xA7, 0xA6] ++ []) := by decide

theorem witness_SelftestEndToEnd :
    let s := idle (List.replicate 27 .ok) ([0x11, 0x22, 0x33, 2, 0, 2, 0] ++ (List.replicate 8 0xFF ++
      [2, 0, 0xA5, 0xA4, 0xA7, 0xA6])) [0x100, 0x102, 3, 4, 5, 6, 7, 8]
    s.busy = false ∧ s.par.wf = true ∧ argsOk .erase s.par s.addr s.par.subsectorSize = true ∧
    argsOk .program s.par s.addr s.par.pageSize = true ∧
    argsOk .verifyErased s.par s.addr s.par.subsectorSize = true ∧
    s.buf.readList 0 s.par.pageSize.toNat = some [0xA5, 0xA4, 0xA7, 0xA6] ∧
    s.draws.bus = List.replicate 27 .ok ++ [] ∧
    s.draws.rx = 0x11 :: 0x22 :: 0x33 :: 2 :: 0 :: 2 :: 0 ::
      (List.replicate s.par.subsectorSize.toNat s.par.erasedByte ++ 2 :: 0 :: ([0xA5, 0xA4, 0xA7, 0xA6] ++ [])) ∧
    s.draws.tick = 0x100 :: 0x102 :: 3 :: 4 :: 5 :: 6 :: 7 :: 8 :: [] ∧
    s.par.settleTicks.toNat ≤ (elapsed 0x100 0x102).toNat ∧ (2 : Byte).getLsbD s.par.welBit.val = true ∧
    (0 : Byte).getLsbD s.par.wipBit.val = false := by decide

theorem witness_StepKeepsInv : Inv atSelftestPoll ∧ ∃ t, step atSelftestPoll = .next t :=
  ⟨inv_atSelftestPoll, _, rfl⟩

theorem witness_OnlyModelFaults :
    (Inv atUnwritten ∧ step atUnwritten = .fault .unwrittenBuf) ∧
    (Inv atFinish ∧ step (given (.host (.read 0x015 .byte)) atFinish) = .refused .registerAccess) :=
  ⟨⟨inv_atUnwritten, rfl⟩, inv_atFinish, rfl⟩

theorem witness_PhaseTable : Inv atCommand ∧ ∃ t, step atCommand = .next t ∧ t.phase ≠ atCommand.phase :=
  ⟨inv_atCommand, _, rfl, by decide⟩

theorem witness_RaisingMatrix :
    Inv atFinish ∧ atFinish.busy = true ∧ atFinish.engineTurn = true ∧
      ∃ t, step atFinish = .next t ∧ t.busy = false := ⟨inv_atFinish, rfl, rfl, _, rfl, rfl⟩

theorem witness_RecordsAppendOnly :
    (Inv atWren ∧ ∃ t, step atWren = .next t ∧ t.bt ≠ atWren.bt) ∧
    (Inv atPass ∧ ∃ t, step atPass = .next t ∧ t.ev ≠ atPass.ev) :=
  ⟨⟨inv_atWren, _, rfl, by decide⟩, inv_atPass, _, rfl, by decide⟩

theorem witness_BufWriters :
    ∃ t, step (running .read (.op .read4) (idle [.ok, .ok] [1, 2, 3, 4] [])) = .next t ∧ t.buf.read 0 = some 1 :=
  ⟨_, rfl, by decide⟩

theorem witness_IdentityAndStatusWriters :
    let s := running .readId (.op .rdid) (idle [.ok, .ok] [1, 2, 3] [])
    (∃ t, step s = .next t ∧ t.idBytes ≠ s.idBytes) ∧ ∀ q, s.inbox ≠ .rst :: q :=
  ⟨⟨_, rfl, by decide⟩, by intro q h; cases h⟩

theorem witness_LatchesHoldWhileBusy :
    Inv atWren ∧ atWren.busy = true ∧ (∃ t, step atWren = .next t) ∧ ∀ q, atWren.inbox ≠ .rst :: q :=
  ⟨inv_atWren, rfl, ⟨_, rfl⟩, by intro q h; cases h⟩

theorem witness_EngineReadsNeitherSrNorPhase :
    (∃ t, exec .erase atWren = .next t) ∧ exec .program atUnwritten = .fault .unwrittenBuf := ⟨⟨_, rfl⟩, rfl⟩

theorem witness_EngineReadsOnlyLatches :
    atUnwritten.runs .program (.op .command) ∧ exec .program atUnwritten = .fault .unwrittenBuf ∧
    atWren.runs .erase (.op .wren) ∧ ∃ t, exec .erase atWren = .next t :=
  ⟨⟨rfl, rfl, rfl⟩, rfl, ⟨rfl, rfl, rfl⟩, _, rfl⟩

/-- Two samples across the wrap of the tick. -/
theorem witness_ElapsedCountsTicks : TickContract (2 ^ 32 - 2) (2 ^ 32 + 1) 0xFFFFFFFE 1 :=
  ⟨by decide, by decide, by decide, by decide⟩

/-- The device of the erase witness: bound by the contract, enabled, idle, in 32-bit mode, every byte 0. -/
def freshDevice : Device :=
  { flash := fun _ => 0, wip := false, wel := true, mode4 := true, armed := false, standing := .bound,
    cycle := false, goal := fun _ => 0, programmed := fun _ => false, goalProgrammed := fun _ => false }

/-- SE4 of the subsector at 0x10 of a device of 24 bytes, a poll after its cycle, and the READ4 of that subsector, which ends at the capacity. -/
theorem witness_ErasedRegionVerifies :
    let s := running .verifyErased (.op .read4) { idle [.ok, .ok] (List.replicate 8 0xFF) [] with len := 8 }
    let r1 := transfer 7 (mkDesc s.par.ins .se4 0x10 0) [] (idle [.ok] [] []).draws
    let r2 := transfer 7 (mkDesc s.par.ins .rdsr 0 0) [] (idle [.ok, .ok] [0] []).draws
    let r3 := s.record (mkDesc s.par.ins .read4 s.addrL s.lenL) []
    s.runs .verifyErased (.op .read4) ∧ verifyErasedArgs s.addrL s.lenL = true ∧
    s.lenL = s.par.subsectorSize ∧ s.addrL.toNat % s.par.subsectorSize.toNat = 0 ∧
    s.addrL.toNat + s.lenL.toNat ≤ 24 ∧
    r1.outcome = .ok ∧ r2.outcome = .ok ∧ r2.rdata = [0] ∧ wipClear s.par 0 = true ∧ r3.outcome = .ok ∧
    s.inbox = [] ∧
    ∃ e, DeviceContract s.par 24 freshDevice [.xact .se4 r1, .xact .rdsr r2, .xact .read4 r3] e := by
  refine ⟨⟨rfl, rfl, rfl⟩, by decide, rfl, by decide, by decide, rfl, rfl, rfl, by decide, rfl, rfl, ?_⟩
  let g : Word → Byte := fun b => if 0x10 ≤ b.toNat ∧ b.toNat < 0x18 then 0xFF else 0
  let d1 : Device := 
    { freshDevice with
      wip := true, cycle := true, flash := g, goal := g, goalProgrammed := markSpan (fun _ => false) 0x10 8 false }
  refine ⟨_, .xact _ d1 _ .se4 _ _ ⟨rfl, ?_⟩ (.complete _ _ _ rfl (.xact _ d1.complete _ .rdsr _ _ ⟨rfl, ?_⟩
    (.xact _ d1.complete _ .read4 _ _ ⟨rfl, ?_⟩ (.done _))))⟩
  · rintro - -
    refine ⟨(by intro h; cases h), fun _ _ _ _ => ⟨g, fun b hb => ?_, g, fun b hb => ?_, rfl⟩⟩
    · exact if_pos hb
    · exact ⟨if_neg hb, if_neg hb⟩
  · rintro -
    exact ⟨rfl, 0, rfl, by decide, by decide⟩
  · rintro - - - -
    exact ⟨rfl, (by intro _; decide)⟩

/-- R620: a settle sample more than 1 ms of ticks after the first shows the device that its settle time has passed, and one tick does not. -/
theorem test_settle_event :
    let s := running .selftest (.seq (.settle 0x100)) (idle [] [] [0x102])
    let u := running .selftest (.seq (.settle 0x100)) (idle [] [] [0x101])
    s.runEvents 1 = [.settled] ∧ u.runEvents 1 = [] := by decide

/-- R801: a block reset during an operation is an event of the device's, and one between operations is not. -/
theorem test_block_reset_event :
    (given .rst (running .erase (.op .issue) (idle [] [] []))).runEvents 1 = [.blockReset] ∧
    (given .rst (idle [] [] [])).runEvents 1 = [] := by decide

/-- R311: with two rows' bytes equal, the event still names the row the block emits. -/
theorem test_event_row :
    let s := { running .writeEnable (.op .wren) (idle [.ok] [] []) with
      par := { tiny with ins := { Config.defaultIns with wren := 0x66 } } }
    (s.runEvents 1).map (fun e => match e with
      | .xact n r => some (n, r.desc.instr)
      | _ => none) = [some (.wren, 0x66)] := by decide

end Sys2Proof.Tests
end

section
/-! SUPPORT. What one step of the machine can do: the input it takes, the engine step of a running operation, and the statement of a body; and what each of them does to the records BT and EV (R124). -/

namespace Sys2Proof.Machine

variable {s t : State} {p : Pos} {q : List Input}

/-! ## One step, by the input it takes (R7) -/

theorem State.engineAt_eq_some : s.engineAt = some p ↔ s.engineTurn = true ∧ s.mstate = .run p := by
  unfold State.engineAt
  cases s.engineTurn <;> cases s.mstate <;> simp

/-- An engine turn takes the head of `inbox`, or stands for an empty one. -/
theorem State.engineTurn_inbox (h : s.engineTurn = true) : s.inbox = [] ∨ ∃ q, s.inbox = .engine :: q := by
  unfold State.engineTurn at h
  split at h
  · exact .inl ‹_›
  · exact .inr ⟨_, ‹_›⟩
  · cases h

/-- Only a CMD write while `BUSY = 0` starts an operation (R131). -/
theorem State.cmdStart_busy {a : HostAccess} {v : Word} (h : s.cmdStart a = some v) : s.busy = false := by
  unfold State.cmdStart at h
  split at h
  · split at h
    · rename_i hc
      exact hc.2
    · cases h
  · cases h

theorem step_rst (h : s.inbox = .rst :: q) : step s = .next (State.blockReset { s with inbox := q }) := by
  simp only [step, State.fetch, State.outside, h]

theorem step_cmdStart {a : HostAccess} {v : Word} (h : s.inbox = .host a :: q) (hv : s.cmdStart a = some v) :
    step s = .next (State.accept { s with inbox := q } (cmdOp v)) := by
  simp only [step, State.fetch, h, hv, Option.map_some]
  exact exec_accept _ (State.cmdStart_busy hv)

theorem step_hostAccess {a : HostAccess} (h : s.inbox = .host a :: q) (hv : s.cmdStart a = none) :
    step s = hostAccess a { s with inbox := q } := by
  simp only [step, State.fetch, State.outside, h, hv, Option.map_none]

theorem step_engineAt (h : s.engineAt = some p) :
    step s = exec s.opL.instr { s with inbox := s.inbox.tail } := by
  obtain ⟨hturn, hrun⟩ := State.engineAt_eq_some.mp h
  obtain hq | ⟨q, hq⟩ := State.engineTurn_inbox hturn
  · have hs : { s with inbox := s.inbox.tail } = s := by rw [hq, List.tail_nil, ← hq]
    rw [hs]
    simp only [step, State.fetch, hq, hrun]
  · simp only [step, State.fetch, hq, hrun, List.tail_cons]

theorem step_idle (h : s.engineTurn = true) (hm : s.mstate = .idle) :
    step s = .next { s with inbox := s.inbox.tail } := by
  obtain hq | ⟨q, hq⟩ := State.engineTurn_inbox h
  · have hs : { s with inbox := s.inbox.tail } = s := by rw [hq, List.tail_nil, ← hq]
    rw [hs]
    simp only [step, State.fetch, State.outside, hq, hm]
  · simp only [step, State.fetch, State.outside, hq, hm, List.tail_cons]

/-- The ways a step reaches a next state (R7, R131, R801). -/
inductive StepCase (s t : State) : Prop
  | blockReset (q : List Input) (h : s.inbox = .rst :: q) (ht : t = State.blockReset { s with inbox := q })
  | accept (a : HostAccess) (q : List Input) (v : Word) (h : s.inbox = .host a :: q)
      (hv : s.cmdStart a = some v) (ht : t = State.accept { s with inbox := q } (cmdOp v))
  | access (a : HostAccess) (q : List Input) (h : s.inbox = .host a :: q) (hv : s.cmdStart a = none)
      (ht : hostAccess a { s with inbox := q } = .next t)
  | wait (h : s.engineTurn = true) (hm : s.mstate = .idle) (ht : t = { s with inbox := s.inbox.tail })
  | engine (p : Pos) (h : s.engineAt = some p) (ht : exec s.opL.instr { s with inbox := s.inbox.tail } = .next t)

theorem step_cases (h : step s = .next t) : StepCase s t := by
  by_cases hturn : s.engineTurn = true
  · cases hm : s.mstate with
    | idle =>
      rw [step_idle hturn hm] at h
      exact .wait hturn hm (Host.Outcome.next.inj h).symm
    | run p =>
      have hp := State.engineAt_eq_some.mpr ⟨hturn, hm⟩
      exact .engine p hp (step_engineAt hp ▸ h)
  · cases hq : s.inbox with
    | nil => simp [State.engineTurn, hq] at hturn
    | cons i q =>
      cases i with
      | engine => simp [State.engineTurn, hq] at hturn
      | rst =>
        rw [step_rst hq] at h
        exact .blockReset q hq (Host.Outcome.next.inj h).symm
      | host a =>
        cases hv : s.cmdStart a with
        | none => exact .access a q hq hv (step_hostAccess hq hv ▸ h)
        | some v =>
          rw [step_cmdStart hq hv] at h
          exact .accept a q v hq hv (Host.Outcome.next.inj h).symm

/-! ## One engine step of a running operation (R520) -/

theorem opStep_stmt {f : Stmt → State → Outcome} {m : Stmt} (hm : ∀ e, m ≠ .finish e) :
    opStep f (.op m) s = f m s := by
  cases m with
  | finish e => exact absurd rfl (hm e)
  | _ => rfl

theorem subBody_eq_bodyOf (k : Sub) : subBody k = bodyOf k.op := by cases k <;> rfl

/-- SELFTEST's engine step at any position (R610). -/
theorem exec_run_selftest (hb : s.busy = true) (ho : s.opL = .selftest) (hp : s.mstate = .run p) :
    exec s.opL.instr s = selftestStep p s := by
  rw [ho]
  exact hostOp_running hb ho hp

/-- Every other operation's engine step at any position (R520). -/
theorem exec_run_opStep (hb : s.busy = true) (ho : s.opL ≠ .selftest) (hp : s.mstate = .run p) :
    exec s.opL.instr s = opStep (bodyOf s.opL) p s := by
  cases h : s.opL with
  | selftest => exact absurd h ho
  | _ => exact hostOp_running hb h hp

/-- The ways the engine step at `p` reaches a next state. Under `Inv` the first is no engine step: a running block is busy. -/
inductive EngineCase (s : State) (p : Pos) (t : State) : Prop
  | accept (hb : s.busy = false) (ht : t = s.accept s.opL)
  | body (x : Op) (m : Stmt) (h : s.inBody x m p) (ht : bodyOf x m s = .next t)
  | seq (a : Seq) (hp : p = .seq a) (ho : s.opL = .selftest) (ht : t = seqStep a s)
  | finish (e : Err) (hp : p = .op (.finish e)) (ho : s.opL ≠ .selftest) (ht : t = s.finish e)

theorem engine_cases (hp : s.mstate = .run p) (h : exec s.opL.instr s = .next t) : EngineCase s p t := by
  cases hb : s.busy with
  | false =>
    rw [exec_accept _ hb] at h
    exact .accept hb (Host.Outcome.next.inj h).symm
  | true =>
    by_cases ho : s.opL = .selftest
    · rw [exec_run_selftest hb ho hp] at h
      cases p with
      | op m => cases h
      | sub k m => exact .body k.op m ⟨hb, hp, .inr ⟨k, rfl, rfl, ho⟩⟩ (subBody_eq_bodyOf k ▸ h)
      | seq a => exact .seq a rfl ho (Host.Outcome.next.inj h).symm
    · rw [exec_run_opStep hb ho hp] at h
      cases p with
      | sub k m => cases h
      | seq a => cases h
      | op m =>
        by_cases hf : ∃ e, m = .finish e
        · obtain ⟨e, rfl⟩ := hf
          exact .finish e rfl ho (Host.Outcome.next.inj h).symm
        · rw [opStep_stmt (fun e he => hf ⟨e, he⟩)] at h
          exact .body s.opL m ⟨hb, hp, .inl ⟨rfl, rfl⟩⟩ h

/-! ## One statement of a body (R20) -/

/-- The statements of the bodies: the transaction the statement issues (R310), or one of the shared steps without a transaction. -/
inductive BodyCase (x : Op) (m : Stmt) (s t : State) : Prop
  | device (name : DevName) (hi : (Pos.op m).issues x = some name)
      (ht : exec (name.instr s.args.a s.args.n) s = .next t)
  | check (m' : Stmt) (hm : m = .check) (ht : checkStep m' s = .next t)
  | gap (c : PollTimes) (hm : m = .gap c) (ht : gapStep c s = .next t)
  | issue (hm : m = .issue) (ht : issueStep s = .next t)
  | compareErased (rd : List Byte) (hm : m = .compare rd) (ht : compareErased rd s = .next t)
  | compareData (rd : List Byte) (hm : m = .compare rd) (ht : compareData rd s = .next t)

section
variable {m : Stmt}

theorem pollBody_cases (x : Op) (h : pollBody m s = .next t) : BodyCase x m s t := by
  cases m with
  | poll c => exact .device .rdsr rfl h
  | gap c => exact .gap c rfl h
  | _ => cases h

theorem weBody_cases (x : Op) (h : weBody m s = .next t) : BodyCase x m s t := by
  cases m with
  | wren => exact .device .wren rfl h
  | _ => exact pollBody_cases x h

theorem resetBody_cases (h : resetBody m s = .next t) : BodyCase .reset m s t := by
  cases m with
  | rsten => exact .device .rsten rfl h
  | rst => exact .device .rst rfl h
  | _ => cases h

theorem readIdBody_cases (h : readIdBody m s = .next t) : BodyCase .readId m s t := by
  cases m with
  | rdid => exact .device .rdid rfl h
  | _ => cases h

theorem en4bBody_cases (h : en4bBody m s = .next t) : BodyCase .en4b m s t := by
  cases m with
  | issue => exact .issue rfl h
  | command => exact .device .en4b rfl h
  | _ => exact weBody_cases .en4b h

theorem eraseBody_cases (h : eraseBody m s = .next t) : BodyCase .erase m s t := by
  cases m with
  | check => exact .check .wren rfl h
  | issue => exact .issue rfl h
  | command => exact .device .se4 rfl h
  | _ => exact weBody_cases .erase h

theorem programBody_cases (h : programBody m s = .next t) : BodyCase .program m s t := by
  cases m with
  | check => exact .check .wren rfl h
  | issue => exact .issue rfl h
  | command => exact .device .pp4 rfl h
  | _ => exact weBody_cases .program h

theorem readBody_cases (h : readBody m s = .next t) : BodyCase .read m s t := by
  cases m with
  | check => exact .check .read4 rfl h
  | read4 => exact .device .read4 rfl h
  | _ => cases h

theorem verifyErasedBody_cases (h : verifyErasedBody m s = .next t) : BodyCase .verifyErased m s t := by
  cases m with
  | check => exact .check .read4 rfl h
  | read4 => exact .device .read4 rfl h
  | compare rd => exact .compareErased rd rfl h
  | _ => cases h

theorem verifyDataBody_cases (h : verifyDataBody m s = .next t) : BodyCase .verifyData m s t := by
  cases m with
  | check => exact .check .read4 rfl h
  | read4 => exact .device .read4 rfl h
  | compare rd => exact .compareData rd rfl h
  | _ => cases h

theorem body_cases {x : Op} (h : bodyOf x m s = .next t) : BodyCase x m s t := by
  cases x with
  | reset => exact resetBody_cases h
  | readId => exact readIdBody_cases h
  | en4b => exact en4bBody_cases h
  | writeEnable => exact weBody_cases .writeEnable h
  | waitBusy => exact pollBody_cases .waitBusy h
  | erase => exact eraseBody_cases h
  | program => exact programBody_cases h
  | read => exact readBody_cases h
  | verifyErased => exact verifyErasedBody_cases h
  | verifyData => exact verifyDataBody_cases h
  | _ => cases h

end

/-! ## What leaves BT and EV alone -/

@[simp] theorem State.clearIdv_bt (s : State) (p : Pos) : (s.clearIdv p).bt = s.bt := by cases p <;> rfl
@[simp] theorem State.clearIdv_ev (s : State) (p : Pos) : (s.clearIdv p).ev = s.ev := by cases p <;> rfl

@[simp] theorem State.pollFail_bt (s : State) (p : Pos) (e : Err) : (s.pollFail p e).bt = s.bt := by
  unfold State.pollFail
  split <;> rfl
@[simp] theorem State.pollFail_ev (s : State) (p : Pos) (e : Err) : (s.pollFail p e).ev = s.ev := by
  unfold State.pollFail
  split <;> rfl

@[simp] theorem State.pollDone_bt (s : State) (p : Pos) : (s.pollDone p).bt = s.bt := by
  unfold State.pollDone
  split
  · split <;> rfl
  · rfl
  · rfl
@[simp] theorem State.pollDone_ev (s : State) (p : Pos) : (s.pollDone p).ev = s.ev := by
  unfold State.pollDone
  split
  · split <;> rfl
  · rfl
  · rfl

@[simp] theorem State.pollAgain_bt (s : State) (p : Pos) (t0 u : Word) : (s.pollAgain p t0 u).bt = s.bt := by
  unfold State.pollAgain
  split
  · simp
  · split <;> rfl
@[simp] theorem State.pollAgain_ev (s : State) (p : Pos) (t0 u : Word) : (s.pollAgain p t0 u).ev = s.ev := by
  unfold State.pollAgain
  split
  · simp
  · split <;> rfl

@[simp] theorem State.commandDone_bt (s : State) (p : Pos) (r : XactResult) : (s.commandDone p r).bt = s.bt := by
  cases r <;> rfl
@[simp] theorem State.commandDone_ev (s : State) (p : Pos) (r : XactResult) : (s.commandDone p r).ev = s.ev := by
  cases r <;> rfl

@[simp] theorem State.readDone_bt (s : State) (p : Pos) (b : List Byte) : (s.readDone p b).bt = s.bt := by
  unfold State.readDone
  split <;> rfl
@[simp] theorem State.readDone_ev (s : State) (p : Pos) (b : List Byte) : (s.readDone p b).ev = s.ev := by
  unfold State.readDone
  split <;> rfl

@[simp] theorem State.compareWith_bt (s : State) (p : Pos) (rd xs : List Byte) :
    (s.compareWith p rd xs).bt = s.bt := by
  unfold State.compareWith
  split <;> rfl
@[simp] theorem State.compareWith_ev (s : State) (p : Pos) (rd xs : List Byte) :
    (s.compareWith p rd xs).ev = s.ev := by
  unfold State.compareWith
  split <;> rfl

@[simp] theorem State.writeReg_bt (s : State) (r : Reg) (v : Word) : (s.writeReg r v).bt = s.bt := by
  cases r <;> rfl
@[simp] theorem State.writeReg_ev (s : State) (r : Reg) (v : Word) : (s.writeReg r v).ev = s.ev := by
  cases r <;> rfl

@[simp] theorem State.writeBuf_bt (s : State) (i : Nat) (w : Width) (v : Word) : (s.writeBuf i w v).bt = s.bt := by
  unfold State.writeBuf
  split <;> rfl
@[simp] theorem State.writeBuf_ev (s : State) (i : Nat) (w : Width) (v : Word) : (s.writeBuf i w v).ev = s.ev := by
  unfold State.writeBuf
  split <;> rfl

@[simp] theorem State.accept_bt (s : State) (o : Op) : (s.accept o).bt = s.bt := rfl
@[simp] theorem State.accept_ev (s : State) (o : Op) : (s.accept o).ev = s.ev := rfl

@[simp] theorem State.blockReset_bt (s : State) : s.blockReset.bt = s.bt := rfl
@[simp] theorem State.blockReset_ev (s : State) : s.blockReset.ev = s.ev := rfl

@[simp] theorem seqStep_bt (a : Seq) (s : State) : (seqStep a s).bt = s.bt := by
  cases a with
  | settle ts =>
    simp only [seqStep]
    split <;> rfl
  | _ => rfl

/-- SELFTEST emits at `Pass` and `Fail`, and nowhere else (R630). -/
theorem seqStep_ev (a : Seq) (s : State) :
    (seqStep a s).ev = s.ev ∨
      ∃ e, (seqStep a s).ev = s.ev ++ [e] ∧ ((∃ n, a = .pass n) ∨ ∃ n x, a = .fail n x) := by
  cases a with
  | pass n => exact .inr ⟨passEvent n s, rfl, .inl ⟨n, rfl⟩⟩
  | fail n x => exact .inr ⟨failEvent n x s, rfl, .inr ⟨n, x, rfl⟩⟩
  | settle ts =>
    refine .inl ?_
    simp only [seqStep]
    split <;> rfl
  | _ => exact .inl rfl

/-- The records BT and EV are those of `s`. -/
def State.SameRecords (s t : State) : Prop := t.bt = s.bt ∧ t.ev = s.ev

theorem hostAccess_sameRecords {a : HostAccess} (h : hostAccess a s = .next t) : s.SameRecords t := by
  cases a with
  | write off w v =>
    simp only [hostAccess, hostWrite] at h
    split at h <;> cases h <;> simp [State.SameRecords]
  | read off w =>
    simp only [hostAccess, hostRead] at h
    split at h
    case h_2 => split at h <;> cases h; exact ⟨rfl, rfl⟩
    all_goals cases h <;> exact ⟨rfl, rfl⟩

theorem checkStep_sameRecords {m : Stmt} (h : checkStep m s = .next t) : s.SameRecords t := by
  unfold checkStep at h
  split at h
  · split at h <;> cases h <;> exact ⟨rfl, rfl⟩
  · cases h

theorem issueStep_sameRecords (h : issueStep s = .next t) : s.SameRecords t := by
  unfold issueStep at h
  split at h <;> cases h
  exact ⟨rfl, rfl⟩

theorem gapStep_sameRecords {c : PollTimes} (h : gapStep c s = .next t) : s.SameRecords t := by
  unfold gapStep at h
  split at h <;> cases h
  split <;> exact ⟨rfl, rfl⟩

theorem compareErased_sameRecords {rd : List Byte} (h : compareErased rd s = .next t) : s.SameRecords t := by
  unfold compareErased at h
  split at h <;> cases h
  exact ⟨State.compareWith_bt .., State.compareWith_ev ..⟩

theorem compareData_sameRecords {rd : List Byte} (h : compareData rd s = .next t) : s.SameRecords t := by
  unfold compareData at h
  split at h
  · split at h <;> cases h
    exact ⟨State.compareWith_bt .., State.compareWith_ev ..⟩
  · cases h

/-! ## What appends to BT (R403) -/

/-- BT has one record more than in `s`, and EV is that of `s`. -/
def State.LogsOne (s t : State) : Prop := (∃ r, t.bt = s.bt ++ [r]) ∧ t.ev = s.ev

theorem State.pollFrom_logsOne (s : State) (p : Pos) (t0 : Word) : s.LogsOne (s.pollFrom p t0) := by
  simp only [State.pollFrom]
  split
  · simp [State.LogsOne]
  · split <;> simp [State.LogsOne]

theorem execRdsr_logsOne (h : execRdsr s = .next t) : s.LogsOne t := by
  simp only [execRdsr, Host.Outcome.next.injEq] at h
  subst h
  split
  · exact s.pollFrom_logsOne _ _
  · exact s.pollFrom_logsOne _ _
  · exact s.afterNow.pollFrom_logsOne _ _
  · exact s.afterNow.pollFrom_logsOne _ _
  · simp [State.LogsOne]

theorem execPp4_logsOne {a n : Word} (h : execPp4 a n s = .next t) : s.LogsOne t := by
  simp only [execPp4] at h
  split at h <;> cases h
  split <;> simp [State.LogsOne]

/-- Every device instruction is one transaction: it appends one record (R403, R410). -/
theorem exec_device_logsOne {name : DevName} {a n : Word} (h : exec (name.instr a n) s = .next t) :
    s.LogsOne t := by
  cases name with
  | rdsr => exact execRdsr_logsOne h
  | pp4 => exact execPp4_logsOne h
  | en4b | se4 =>
    cases h
    split <;> simp [State.LogsOne]
  | rsten | rst | rdid | wren | read4 =>
    cases h
    split
    · simp [State.LogsOne]
    · split <;> simp [State.LogsOne]

/-- A statement of a body appends to BT only when it issues a transaction, and never to EV (R124). -/
theorem body_records {x : Op} {m : Stmt} (h : bodyOf x m s = .next t) :
    (t.bt = s.bt ∨ ∃ name r, (Pos.op m).issues x = some name ∧ t.bt = s.bt ++ [r]) ∧ t.ev = s.ev := by
  cases body_cases h with
  | device name hi ht =>
    obtain ⟨⟨r, hr⟩, he⟩ := exec_device_logsOne ht
    exact ⟨.inr ⟨name, r, hi, hr⟩, he⟩
  | check m' _ ht => exact (checkStep_sameRecords ht).imp_left .inl
  | gap c _ ht => exact (gapStep_sameRecords ht).imp_left .inl
  | issue _ ht => exact (issueStep_sameRecords ht).imp_left .inl
  | compareErased rd _ ht => exact (compareErased_sameRecords ht).imp_left .inl
  | compareData rd _ ht => exact (compareData_sameRecords ht).imp_left .inl

/-- The records after an engine step at `p` (R124). -/
theorem engine_records (hp : s.mstate = .run p) (h : exec s.opL.instr s = .next t) :
    (t.bt = s.bt ∨ ∃ name r, p.issues s.opL = some name ∧ t.bt = s.bt ++ [r]) ∧
    (t.ev = s.ev ∨ ∃ e, s.opL = .selftest ∧ t.ev = s.ev ++ [e] ∧
      ((∃ n, p = .seq (.pass n)) ∨ ∃ n x, p = .seq (.fail n x))) := by
  cases engine_cases hp h with
  | accept _ ht => exact ht ▸ ⟨.inl rfl, .inl rfl⟩
  | body x m hbody ht =>
    rw [hbody.issues]
    exact (body_records ht).imp_right .inl
  | seq a hp ho ht =>
    subst ht hp
    refine ⟨.inl (seqStep_bt a s), (seqStep_ev a s).imp_right ?_⟩
    rintro ⟨e, he, ha⟩
    exact ⟨e, ho, he, by simpa using ha⟩
  | finish e _ _ ht => exact ht ▸ ⟨.inl rfl, .inl rfl⟩

/-! ## Host writes to the registers (R101, R130 to R132) -/

theorem target_register (par : Params) (r : Reg) : target par r.offset .word = .reg r := by cases r <;> rfl

theorem step_writeReg (r : Reg) {v : Word} (h : s.inbox = .host (.write r.offset .word v) :: q)
    (hr : r ≠ .cmd ∨ s.busy = true) : step s = .next (State.writeReg { s with inbox := q } r v) := by
  have hv : s.cmdStart (.write r.offset .word v) = none := by
    obtain hr | hb := hr <;> simp [State.cmdStart, target_register, *]
  simp only [step_hostAccess h hv, hostAccess, hostWrite, target_register]

theorem step_cmd_accept {v : Word} (hb : s.busy = false) (h : s.inbox = .host (.write Reg.cmd.offset .word v) :: q) :
    step s = .next (State.accept { s with inbox := q } (cmdOp v)) :=
  step_cmdStart h (by simp [State.cmdStart, target_register, hb])

theorem step_cmd_reject {v : Word} (hb : s.busy = true) (h : s.inbox = .host (.write Reg.cmd.offset .word v) :: q) :
    step s = .next (State.reject { s with inbox := q }) :=
  step_writeReg .cmd h (.inr hb)

end Sys2Proof.Machine

/-! ## The statements of 10_state.md -/

namespace Sys2Proof.Proofs
open Sys2Proof Sys2Proof.Machine

/-- Settles O53, by the input the step takes: only the engine step of a running operation appends. -/
theorem recordsAppendOnly : Obligations.RecordsAppendOnly := by
  intro s s' _ h
  cases step_cases h with
  | blockReset q _ ht => exact ht ▸ ⟨.inl rfl, .inl rfl⟩
  | accept a q v _ _ ht => exact ht ▸ ⟨.inl rfl, .inl rfl⟩
  | access a q _ _ ht => exact (hostAccess_sameRecords ht).imp .inl .inl
  | wait _ _ ht => exact ht ▸ ⟨.inl rfl, .inl rfl⟩
  | engine p hp ht =>
    have hrun := (State.engineAt_eq_some.mp hp).2
    refine (engine_records (s := { s with inbox := s.inbox.tail }) hrun ht).imp ?_ ?_
    · exact .imp_right fun ⟨name, r, hi, hr⟩ => ⟨p, name, r, hp, hi, hr⟩
    · exact .imp_right fun ⟨e, ho, he, hpos⟩ => ⟨p, e, hp, ho, he, hpos⟩

/-- Settles O6: the step is block reset, whose every field is the one R150 lists. -/
theorem blockResetState : Obligations.BlockResetState := by
  intro s q h
  refine ⟨_, step_rst h, ?_⟩
  simp [State.blockReset, State.reset, State.readReg, State.status, State.mmdata, Op.code, Err.code, Phase.code]

/-- Settles O9: every register write goes through `step_writeReg`, and a CMD write through accept or reject. -/
theorem hostWritesRegisters : Obligations.HostWritesRegisters := by
  intro s q v
  refine ⟨fun h => step_writeReg .addr h (.inl (by decide)), fun h => step_writeReg .len h (.inl (by decide)),
    fun h => step_writeReg .tmo h (.inl (by decide)), fun h => step_writeReg .tmoShort h (.inl (by decide)),
    ?_, fun h => ?_⟩
  · rintro r (rfl | rfl | rfl | rfl | rfl) h <;> exact step_writeReg _ h (.inl (by decide))
  · split
    · rename_i hb
      exact step_cmd_reject hb h
    · rename_i hb
      exact step_cmd_accept (Bool.eq_false_iff.mpr hb) h

/-- Settles O15: the write is the rejected one. -/
theorem rejectWhileBusy : Obligations.RejectWhileBusy := fun _ _ _ hb h => step_cmd_reject hb h

end Sys2Proof.Proofs
end

section
/-! SUPPORT. The fields of the two formats' words (R301, R305 to R307), and what a command word's `OP` names (R302). -/

namespace Sys2Proof
open BitVec

/-! ## Command words (R301, R302) -/

@[simp] theorem Op.code_ofCode : ∀ c : BitVec 4, (Op.ofCode c).code = c := by decide

@[simp] theorem Op.op_instr (o : Op) : o.instr.op = some o := by cases o <;> rfl

theorem Op.ofCode_injective : Function.Injective Op.ofCode := Function.LeftInverse.injective Op.code_ofCode

theorem Op.instr_injective : Function.Injective Op.instr := fun x y h => by
  simpa using congrArg Instr.op h

theorem encode_op_instr (b : InsBytes) (o : Op) : encode b o.instr = [o.code.setWidth 32] := by
  simp only [encode, Op.op_instr]

theorem setWidth_op_bits (w : Word) : (w.extractLsb' 0 4).setWidth 32 = w &&& 0xF := by
  have h : (w &&& 0xF).toNat = w.toNat % 16 := Nat.and_two_pow_sub_one_eq_mod w.toNat 4
  apply BitVec.eq_of_toNat_eq
  rw [h, BitVec.toNat_setWidth, BitVec.extractLsb'_toNat]
  omega

theorem Op.code_bits_above (o : Op) : (o.code.setWidth 32).extractLsb' 4 28 = 0 := by cases o <;> rfl

/-! ## Descriptor word 0 (R305 to R307) -/

namespace Desc
variable (d : Desc)

theorem word0_instr : d.word0.extractLsb' 0 8 = d.instr := extractLsb'_append_eq_right

theorem word0_adw : d.word0.getLsbD 8 = d.adw :=
  getLsbD_append.trans (getLsbD_append.trans (by simp))

theorem word0_dir : d.word0.extractLsb' 9 2 = d.dir.code :=
  (extractLsb'_append_eq_of_le (by decide)).trans <|
    (extractLsb'_append_eq_of_le (by decide)).trans extractLsb'_append_eq_right

theorem word0_dummy : d.word0.extractLsb' 11 5 = d.dummy :=
  (extractLsb'_append_eq_of_le (by decide)).trans <|
    (extractLsb'_append_eq_of_le (by decide)).trans <|
      (extractLsb'_append_eq_of_le (by decide)).trans extractLsb'_append_eq_right

theorem word0_above : d.word0.extractLsb' 16 16 = 0 :=
  (extractLsb'_append_eq_of_le (by decide)).trans <|
    (extractLsb'_append_eq_of_le (by decide)).trans <|
      (extractLsb'_append_eq_of_le (by decide)).trans extractLsb'_append_eq_left

end Desc

/-- `DIR`'s codes tell the three directions apart, and none is the reserved 0b11 (R306). -/
theorem Dir.code_cases (x : Dir) :
    (x = .none ↔ x.code = 0b00) ∧ (x = .read ↔ x.code = 0b01) ∧ (x = .write ↔ x.code = 0b10) ∧ x.code ≠ 0b11 := by
  cases x <;> decide

end Sys2Proof

/-! ## The statements of 30_encoding.md -/

namespace Sys2Proof.Proofs

/-- Settles O3: `decodeCmd` is the injective reading of `OP` as an operation, and the encoder writes `OP` back. -/
theorem commandWordDecodesByOp : Obligations.CommandWordDecodesByOp := by
  refine ⟨fun w v => ?_, fun b w => ⟨rfl, ?_⟩, fun s => s.opL.code_bits_above⟩
  · exact (Op.instr_injective.comp Op.ofCode_injective).eq_iff (a := w.extractLsb' 0 4)
  · calc encode b (decodeCmd w) = [(cmdOp w).code.setWidth 32] := encode_op_instr b (cmdOp w)
      _ = [w &&& 0xF] := by rw [cmdOp, Op.code_ofCode, setWidth_op_bits]

/-- Settles O5: each field is read back from word 0, and `DIR` from its code. -/
theorem descriptorLayout : Obligations.DescriptorLayout := by
  intro d
  rw [d.word0_dir]
  obtain ⟨hnone, hread, hwrite, hres⟩ := d.dir.code_cases
  exact ⟨rfl, d.word0_instr, d.word0_adw, hnone, hread, hwrite, hres, d.word0_dummy, d.word0_above⟩

end Sys2Proof.Proofs
end

section
/-! SUPPORT. One poll of the bounded loop (R452, R453): the two predicates and timeouts, the loop's ends as updates of the state, and the byte a poll receives. -/

namespace Sys2Proof.Machine

variable {s : State} {p : Pos} {x : Op} {c : Option PollTimes}

/-! ## The predicate and the timeout of an operation's loop (R460, R470) -/

theorem pollPred_eq_true_iff (par : Params) (x : Op) (b : Byte) : pollPred par x b = true ↔
    if x = .waitBusy then b.getLsbD par.wipBit.val = false else b.getLsbD par.welBit.val = true := by
  by_cases hx : x = .waitBusy
  · subst hx
    simp [pollPred, wipClear]
  · simp [pollPred, welSet, hx]

theorem pollTmo_eq (par : Params) (x : Op) (t : Word) :
    pollTmo par x t = if x = .waitBusy then t else par.tWelMs := by
  cases x <;> rfl

/-! ## How the loop ends or goes on -/

theorem State.pollFail_eq (s : State) (p : Pos) (e : Err) :
    s.pollFail p e = { s with
      phase := if p.opOf s.opL = .waitBusy then s.phase else .idle, mstate := .run (p.leave e) } := by
  unfold State.pollFail
  cases p.opOf s.opL <;> rfl

theorem State.pollDone_eq (s : State) (p : Pos) :
    s.pollDone p = { s with
      phase := if p.opOf s.opL = .waitBusy then (if s.phase = .deviceBusy then .idle else s.phase) else .weLatched
      mstate := .run (if p.opOf s.opL = .waitBusy ∨ p.opOf s.opL = .writeEnable then p.leave .ok
        else p.goto .issue) } := by
  unfold State.pollDone
  cases p.opOf s.opL with
  | waitBusy =>
    by_cases hd : s.phase = .deviceBusy <;> simp [State.leave, State.setPhase, hd]
  | _ => rfl

theorem State.pollAgain_expired {t0 t : Word}
    (h : (if p.opOf s.opL = .waitBusy then (s.argsAt p).t else s.par.tWelMs).toNat ≤ (elapsed t0 t).toNat) :
    s.pollAgain p t0 t = s.pollFail p .timeout := by
  rw [← pollTmo_eq] at h
  exact if_pos (decide_eq_true h)

theorem State.pollAgain_open {t0 t : Word}
    (h : (elapsed t0 t).toNat < (if p.opOf s.opL = .waitBusy then (s.argsAt p).t else s.par.tWelMs).toNat) :
    s.pollAgain p t0 t = { s with
      mstate := .run (if s.par.pollGapMs = 0 then p.goto (.poll (some ⟨t0, t⟩)) else p.goto (.gap ⟨t0, t⟩)) } := by
  rw [← pollTmo_eq] at h
  have hd : deadline t0 t (pollTmo s.par (p.opOf s.opL) (s.argsAt p).t) = false :=
    decide_eq_false (Nat.not_le_of_lt h)
  simp only [State.pollAgain, hd, Bool.false_eq_true, if_false]
  split <;> rfl

/-! ## The poll's step -/

/-- The state in which a poll's transaction starts: the first poll's step has taken the loop-entry sample (R452). -/
def State.pollEntry (s : State) (c : Option PollTimes) : State :=
  { s with draws := match c with
      | some _ => s.draws
      | none => s.draws.afterNow }

/-- The engine step at a poll is `pollFrom` with the loop-entry sample, in every body that polls (R452, R460, R470). -/
theorem exec_poll (hx : x = .waitBusy ∨ x = .writeEnable ∨ x = .en4b ∨ x = .erase ∨ x = .program)
    (h : s.inBody x (.poll c) p) :
    exec s.opL.instr s = .next ((s.pollEntry c).pollFrom p (s.loopEntry c)) := by
  have hbody : bodyOf x (.poll c) s = execRdsr s := by
    obtain rfl | rfl | rfl | rfl | rfl := hx <;> rfl
  rw [exec_inBody h (by simp), hbody, execRdsr_inBody h]
  cases c <;> rfl

/-- A status read returns an error or one byte (R401, R416). -/
theorem transfer_rdsr_result (tmo : Word) (ins : InsBytes) (w : List Byte) (q : Draws) :
    (∃ e, (transfer tmo (mkDesc ins .rdsr 0 0) w q).result = .err e) ∨
      ∃ b, (transfer tmo (mkDesc ins .rdsr 0 0) w q).result = .ok [b] := by
  obtain ⟨hok, hres⟩ | ⟨-, hres⟩ | ⟨-, hres⟩ :=
    BusRecord.result_cases (transfer tmo (mkDesc ins .rdsr 0 0) w q)
  · have hlen : (transfer tmo (mkDesc ins .rdsr 0 0) w q).rdata.length = 1 := by
      rw [transfer_rdata_length, if_pos ⟨rfl, hok⟩]
      rfl
    obtain ⟨b, hb⟩ := List.length_eq_one_iff.mp hlen
    exact .inr ⟨b, hb ▸ hres⟩
  · exact .inl ⟨_, hres⟩
  · exact .inl ⟨_, hres⟩

end Sys2Proof.Machine

/-! ## The statements of 41_polling.md -/

namespace Sys2Proof.Proofs
open Sys2Proof Sys2Proof.Machine

/-- Settles O26: by the poll's result, then the predicate, then the deadline. -/
theorem pollLoop : Obligations.PollLoop := by
  intro s p x c hx h
  obtain rfl : p.opOf s.opL = x := h.opOf
  rw [exec_poll hx h]
  intro q t0 tmo d r q1 s1
  refine ⟨fun e he => ?_, fun b hb => ?_, transfer_rdsr_result ..⟩
  · rw [pollFrom_err (s := s.pollEntry c) he, State.pollFail_eq]
    rfl
  · have hpred := pollPred_eq_true_iff s.par (p.opOf s.opL) b
    refine ⟨fun hb' => ?_, fun hb' => ?_⟩
    · rw [pollFrom_done (s := s.pollEntry c) hb (hpred.mpr hb'), State.pollDone_eq]
      rfl
    · rw [pollFrom_again (s := s.pollEntry c) hb (Bool.eq_false_iff.mpr (mt hpred.mp hb'))]
      refine ⟨fun hlate => ?_, fun hearly => ?_⟩
      · rw [State.pollAgain_expired (by exact hlate), State.pollFail_eq]
        rfl
      · rw [State.pollAgain_open (by exact hearly)]
        rfl

/-- Settles O27: with a timeout of 0 the deadline is reached at every sample, so each case of `pollLoop` ends the loop. -/
theorem zeroTimeoutMakesOnePoll : Obligations.ZeroTimeoutMakesOnePoll := by
  intro s p x hx h htmo
  obtain ⟨herr, hok, hres⟩ := pollLoop s p x none hx h
  obtain ⟨e, he⟩ | ⟨b, hb⟩ := hres
  · have hbus : e = .busError ∨ e = .busTimeout := (BusRecord.result_err he).imp And.right And.right
    exact ⟨_, _, herr e he, rfl, transfer_desc _ _ _ _, .inl ⟨e, hbus, he, rfl⟩⟩
  · obtain ⟨hdone, hagain⟩ := hok b hb
    by_cases hpred : if x = .waitBusy then b.getLsbD s.par.wipBit.val = false else b.getLsbD s.par.welBit.val = true
    · refine ⟨_, _, hdone hpred, rfl, transfer_desc _ _ _ _, .inr ⟨b, hb, ?_⟩⟩
      rw [if_pos hpred]
    · have hexec := (hagain hpred).1 (by simp [htmo])
      refine ⟨_, _, hexec, rfl, transfer_desc _ _ _ _, .inr ⟨b, hb, ?_⟩⟩
      rw [if_neg hpred]

end Sys2Proof.Proofs
end

section
/-! SUPPORT. Runs of one instruction, engine step by engine step, and what accepting a reserved code (R302, R525) writes. -/

namespace Sys2Proof

/-! ## Reserved codes (R302) -/

/-- The five values of `OP` that name no operation. -/
def Op.Reserved (o : Op) : Prop :=
  o = .reserved0 ∨ o = .reservedC ∨ o = .reservedD ∨ o = .reservedE ∨ o = .reservedF

theorem Op.Reserved.ne_selftest {o : Op} (ho : o.Reserved) : o ≠ .selftest := by
  obtain rfl | rfl | rfl | rfl | rfl := ho <;> decide

end Sys2Proof

namespace Sys2Proof.Machine

variable {s t : State} {o : Op} {e : Err}

/-! ## Runs -/

theorem execTimes_succ {i : Instr} (k : Nat) (h : exec i s = .next t) :
    execTimes (k + 1) i s = execTimes k i t := by
  simp only [execTimes, h]

/-! ## Completion (R522) -/

/-- A host operation or reserved code at its own `finish`. -/
theorem exec_runs_finish (ho : o ≠ .selftest) (h : s.runs o (.op (.finish e))) :
    exec o.instr s = .next (s.finish e) := by
  obtain ⟨hb, rfl, hp⟩ := h
  exact exec_run_finish hb ho hp

/-- SELFTEST at its own `finish`. -/
theorem exec_runs_seq_finish (h : s.runs .selftest (.seq (.finish e))) :
    exec Op.selftest.instr s = .next (s.finish e) := by
  obtain ⟨hb, ho, hp⟩ := h
  rw [← ho]
  exact exec_run_seq hb ho hp

/-! ## Reserved codes (R525) -/

/-- Accepting a reserved code clears no result register, and the engine is at `finish` at once (R131, R525). -/
theorem State.accept_reserved (s : State) (ho : o.Reserved) :
    s.accept o = { s with
      opL := o, addrL := s.addr, lenL := s.len, tmoL := s.tmo, tmosL := s.tmoShort
      busy := true, done := false, err := .ok, cmdrej := false, stepNo := 0
      mstate := .run (.op (.finish .invalidArgument)) } := by
  obtain rfl | rfl | rfl | rfl | rfl := ho <;> rfl

theorem State.accept_reserved_runs (s : State) (ho : o.Reserved) :
    (s.accept o).runs o (.op (.finish .invalidArgument)) := by
  rw [s.accept_reserved ho]
  exact ⟨rfl, rfl, rfl⟩

/-- A reserved code's whole run is its accept and its `finish` (R525). -/
theorem execTimes_reserved (ho : o.Reserved) (hb : s.busy = false) :
    execTimes 2 o.instr s = .next ((s.accept o).finish .invalidArgument) := by
  rw [execTimes_succ 1 (exec_accept o hb),
    execTimes_succ 0 (exec_runs_finish ho.ne_selftest (s.accept_reserved_runs ho)), execTimes]

end Sys2Proof.Machine

/-! ## The statements of 42_protocol_ops.md -/

namespace Sys2Proof.Proofs
open Sys2Proof Sys2Proof.Machine

/-- Settles O22: SELFTEST ends at a statement of its own, every other operation at the body's `finish`. -/
theorem finishEndsTheOperation : Obligations.FinishEndsTheOperation := by
  rintro s o e (⟨ho, h⟩ | ⟨rfl, h⟩)
  · exact exec_runs_finish ho h
  · exact exec_runs_seq_finish h

/-- Settles O41: the run is accept and `finish`, and the accept of a reserved code writes none of the fields listed as kept. -/
theorem reservedCodesRun : Obligations.ReservedCodesRun := by
  intro s o ho hb
  refine ⟨_, execTimes_reserved ho hb, ?_⟩
  simp [s.accept_reserved ho]

end Sys2Proof.Proofs
end

section
/-! SUPPORT. What ends an operation (R522): a statement of a body keeps BUSY, so a step that clears it is a `finish`, whose code the position's legality bounds (R703); and `elapsed` in exact arithmetic (R721). -/

namespace Sys2Proof.Machine

variable {s t : State}

/-! ## A statement of a body keeps BUSY -/

@[simp] theorem State.clearIdv_busy (s : State) (p : Pos) : (s.clearIdv p).busy = s.busy := by cases p <;> rfl

@[simp] theorem State.pollFail_busy (s : State) (p : Pos) (e : Err) : (s.pollFail p e).busy = s.busy := by
  rw [State.pollFail_eq]

@[simp] theorem State.pollDone_busy (s : State) (p : Pos) : (s.pollDone p).busy = s.busy := by
  rw [State.pollDone_eq]

@[simp] theorem State.pollAgain_busy (s : State) (p : Pos) (t0 u : Word) :
    (s.pollAgain p t0 u).busy = s.busy := by
  unfold State.pollAgain
  split
  · simp
  · split <;> rfl

@[simp] theorem State.commandDone_busy (s : State) (p : Pos) (r : XactResult) :
    (s.commandDone p r).busy = s.busy := by
  cases r <;> rfl

@[simp] theorem State.readDone_busy (s : State) (p : Pos) (b : List Byte) : (s.readDone p b).busy = s.busy := by
  unfold State.readDone
  split <;> rfl

@[simp] theorem State.compareWith_busy (s : State) (p : Pos) (rd xs : List Byte) :
    (s.compareWith p rd xs).busy = s.busy := by
  unfold State.compareWith
  split <;> rfl

@[simp] theorem State.pollFrom_busy (s : State) (p : Pos) (t0 : Word) : (s.pollFrom p t0).busy = s.busy := by
  simp only [State.pollFrom]
  split
  · simp
  · split <;> simp

theorem execRdsr_busy (h : execRdsr s = .next t) : t.busy = s.busy := by
  cases h
  split <;> simp

theorem execPp4_busy {a n : Word} (h : execPp4 a n s = .next t) : t.busy = s.busy := by
  simp only [execPp4] at h
  split at h <;> cases h
  split <;> simp

/-- A transaction's step is never a `finish` (R20): no device instruction clears BUSY, whatever its outcome. -/
theorem exec_device_busy {name : DevName} {a n : Word} (h : exec (name.instr a n) s = .next t) :
    t.busy = s.busy := by
  cases name with
  | rdsr => exact execRdsr_busy h
  | pp4 => exact execPp4_busy h
  | en4b | se4 =>
    cases h
    split <;> simp
  | rsten | rst | rdid | wren | read4 =>
    cases h
    split
    · simp
    · split <;> simp

theorem checkStep_busy {m : Stmt} (h : checkStep m s = .next t) : t.busy = s.busy := by
  unfold checkStep at h
  split at h
  · split at h <;> cases h <;> rfl
  · cases h

theorem issueStep_busy (h : issueStep s = .next t) : t.busy = s.busy := by
  unfold issueStep at h
  split at h <;> cases h
  rfl

theorem gapStep_busy {c : PollTimes} (h : gapStep c s = .next t) : t.busy = s.busy := by
  unfold gapStep at h
  split at h <;> cases h
  split <;> rfl

theorem compareErased_busy {rd : List Byte} (h : compareErased rd s = .next t) : t.busy = s.busy := by
  unfold compareErased at h
  split at h <;> cases h
  exact State.compareWith_busy ..

theorem compareData_busy {rd : List Byte} (h : compareData rd s = .next t) : t.busy = s.busy := by
  unfold compareData at h
  split at h
  · split at h <;> cases h
    exact State.compareWith_busy ..
  · cases h

/-- `finish` is a step of its own (R20, R522): no statement of a body clears BUSY. -/
theorem body_busy {x : Op} {m : Stmt} (h : bodyOf x m s = .next t) : t.busy = s.busy := by
  cases body_cases h with
  | device name _ ht => exact exec_device_busy ht
  | check m' _ ht => exact checkStep_busy ht
  | gap c _ ht => exact gapStep_busy ht
  | issue _ ht => exact issueStep_busy ht
  | compareErased rd _ ht => exact compareErased_busy ht
  | compareData rd _ ht => exact compareData_busy ht

/-! ## The step that ends an operation -/

/-- Under `Inv`, the engine step that ends an operation is SELFTEST's own, or the `finish` of a host operation with a code its row of the matrix allows (R522, R703). -/
theorem step_ends_cases (hi : Inv s) (h : step s = .next t) (hb : s.busy = true) (hb' : t.busy = false)
    (hturn : s.engineTurn = true) : s.opL = .selftest ∨ mayRaise s.opL t.err = true := by
  cases hm : s.mstate with
  | idle => exact absurd hm (hi.busyRun.mp hb)
  | run p =>
    rw [step_engineAt (State.engineAt_eq_some.mpr ⟨hturn, hm⟩)] at h
    cases engine_cases (s := { s with inbox := s.inbox.tail }) hm h with
    | accept hidle _ => exact absurd (hb.symm.trans hidle) (by decide)
    | body x m _ ht => exact absurd (hb.symm.trans ((body_busy ht).symm.trans hb')) (by decide)
    | seq a _ ho _ => exact .inl ho
    | finish e hp _ ht =>
      subst hp ht
      have hlegal := (hi.run _ hm).legal
      simp only [Pos.legal, Bool.and_eq_true] at hlegal
      exact .inr hlegal.2

/-! ## Elapsed ticks (R721) -/

theorem elapsed_toNat (t0 t1 : Word) : (elapsed t0 t1).toNat = (t1.toNat + 2 ^ 32 - t0.toNat) % 2 ^ 32 := by
  rw [elapsed, BitVec.toNat_sub, ← Nat.sub_add_comm t0.isLt.le, Nat.add_comm]

/-- The wrap of the tick cancels: both samples are taken modulo 2^32, and so is their difference, which is below it. -/
theorem TickContract.elapsed_toNat {m0 m1 : Nat} {t0 t1 : Word} (h : TickContract m0 m1 t0 t1) :
    (elapsed t0 t1).toNat = m1 - m0 := by
  obtain ⟨hle, hlt, rfl, rfl⟩ := h
  rw [Machine.elapsed_toNat, BitVec.toNat_ofNat, BitVec.toNat_ofNat]
  simp only [Config.tickBits] at hlt
  omega

end Sys2Proof.Machine

/-! ## The statements of 60_exceptions.md -/

namespace Sys2Proof.Proofs
open Sys2Proof Sys2Proof.Machine

/-- Settles O52: by who ends the operation, and then row by row of the matrix. -/
theorem raisingMatrix : Obligations.RaisingMatrix := by
  intro s s' hi h hb hb' hturn
  obtain ho | hmay := step_ends_cases hi h hb hb' hturn
  · simp only [ho]
  · generalize s.opL = o, s'.err = e at hmay ⊢
    cases o with
    | selftest => trivial
    | _ => cases e <;> simp [mayRaise] at hmay ⊢

/-- Settles O59: the three vectors are the spec's, evaluated. -/
theorem elapsedCountsTicks : Obligations.ElapsedCountsTicks :=
  ⟨elapsed_toNat, fun _ _ _ _ => TickContract.elapsed_toNat, by decide, by decide, by decide⟩

end Sys2Proof.Proofs
end

section
/-! SUPPORT. The rows of R310 told apart by word 0 (R305, R311), and the decoder after the encoder. -/

namespace Sys2Proof

/-! ## Word 0 tells the rows apart (R311) -/

/-- Word 0 holds `INSTR`, `ADW` and `DIR` of a row; the operands are not in it. -/
theorem mkDesc_word0_fields (b : InsBytes) (name : DevName) (a n : Word) :
    (mkDesc b name a n).word0.extractLsb' 0 8 = b.byte name ∧ (mkDesc b name a n).word0.getLsbD 8 = name.adw ∧
      (mkDesc b name a n).word0.extractLsb' 9 2 = name.dir.code :=
  ⟨Desc.word0_instr _, Desc.word0_adw _, Desc.word0_dir _⟩

theorem mkDesc_word0_operands (b : InsBytes) (name : DevName) (a n : Word) :
    (mkDesc b name a n).word0 = (mkDesc b name 0 0).word0 := rfl

/-- Bytes that are distinct where `ADW` and `DIR` agree give the nine rows nine words. -/
theorem mkDesc_word0_injective {b : InsBytes} (hb : b.distinct = true) {x y : DevName}
    (h : (mkDesc b x 0 0).word0 = (mkDesc b y 0 0).word0) : x = y := by
  have hinstr := congrArg (BitVec.extractLsb' 0 8) h
  have hadw := congrArg (BitVec.getLsbD · 8) h
  have hdir := congrArg (BitVec.extractLsb' 9 2) h
  simp only [mkDesc_word0_fields] at hinstr hadw hdir
  simp only [InsBytes.distinct, Bool.and_eq_true, bne_iff_ne] at hb
  cases x <;> cases y <;> simp_all [DevName.adw, DevName.dir, Dir.code, InsBytes.byte]

theorem findRow_word0 {b : InsBytes} (hb : b.distinct = true) (name : DevName) (a n : Word) :
    findRow b (mkDesc b name a n).word0 = some name := by
  rw [mkDesc_word0_operands]
  have hmem : name ∈ allDevNames := by cases name <;> decide
  cases h : findRow b (mkDesc b name 0 0).word0 with
  | none => simpa using List.find?_eq_none.mp h name hmem
  | some row => exact congrArg some (mkDesc_word0_injective hb (by simpa using List.find?_some h))

/-! ## Decoding an encoded instruction (R301, R305, R310) -/

theorem cmdOp_code (o : Op) : cmdOp (o.code.setWidth 32) = o := by cases o <;> rfl

theorem decodeRow_word0 {b : InsBytes} (hb : b.distinct = true) (name : DevName) (a n x y : Word) :
    decodeRow b (mkDesc b name a n).word0 x y = .ok (name.instr x y) := by
  have hdir := (mkDesc b name a n).dir.code_cases.2.2.2
  have hdummy : (mkDesc b name a n).dummy = 0 := rfl
  simp only [decodeRow, Desc.word0_above, Desc.word0_dummy, hdummy, Desc.word0_dir, ne_eq, not_true_eq_false,
    if_false, hdir, findRow_word0 hb]

/-- The words of a row's descriptor are those of the instruction the row and its operand words name. -/
theorem desc_instr_words (b : InsBytes) (name : DevName) (a n : Word) :
    ((name.instr (mkDesc b name a n).addr (mkDesc b name a n).dlen).desc b).map Desc.words =
      some (mkDesc b name a n).words := by
  cases name <;> rfl

theorem decodeDesc_words {b : InsBytes} (hb : b.distinct = true) (name : DevName) (a n : Word) :
    decode b .bus (mkDesc b name a n).words =
      .ok (name.instr (mkDesc b name a n).addr (mkDesc b name a n).dlen) := by
  simp only [Desc.words, decode, decodeDesc, decodeRow_word0 hb]
  exact if_pos (desc_instr_words b name a n)

theorem Instr.eq_op_instr {i : Instr} {o : Op} (h : i.op = some o) : i = o.instr := by
  cases i <;> cases h <;> rfl

theorem Instr.device_of_op_none {i : Instr} (h : i.op = none) : ∃ name a n, i.device = some (name, a, n) := by
  cases i with
  | se4 | pp4 | read4 | rsten | rst | rdid | rdsr | wren | en4bBus => exact ⟨_, _, _, rfl⟩
  | _ => cases h

theorem Instr.op_of_device {i : Instr} {d : DevName × Word × Word} (h : i.device = some d) : i.op = none := by
  cases i <;> cases h <;> rfl

/-- A device instruction is its row's, with the operand words its descriptor holds (R310, R407). -/
theorem Instr.eq_device_instr {i : Instr} {name : DevName} {a n : Word} (h : i.device = some (name, a, n))
    (b : InsBytes) : i = name.instr (mkDesc b name a n).addr (mkDesc b name a n).dlen := by
  cases i <;> cases h <;> rfl

end Sys2Proof

/-! ## The statements of 30_encoding.md -/

namespace Sys2Proof.Proofs
open Sys2Proof

/-- Settles O1: Format H by `OP`'s code, Format B by the one row word 0 names. -/
theorem decodeEncodeRoundTrip : Obligations.DecodeEncodeRoundTrip := by
  intro b i hb
  cases hop : i.op with
  | some o =>
    obtain rfl := Instr.eq_op_instr hop
    rw [Instr.format, hop, encode_op_instr]
    exact congrArg (Except.ok ∘ Op.instr) (cmdOp_code o)
  | none =>
    obtain ⟨name, a, n, hdev⟩ := Instr.device_of_op_none hop
    have he : encode b i = (mkDesc b name a n).words := by simp [encode, Instr.desc, hop, hdev]
    rw [Instr.format, hop, he]
    exact (decodeDesc_words hb name a n).trans (congrArg Except.ok (Instr.eq_device_instr hdev b).symm)

/-- Settles O2: the decoder compares the words with those of the descriptor it read. -/
theorem decodedDescriptorIsExact : Obligations.DecodedDescriptorIsExact := by
  intro b ws i h
  match ws, h with
  | [w0, a, n], h =>
    simp only [decode, decodeDesc] at h
    split at h
    · split at h
      · rename_i hw
        obtain rfl := Except.ok.inj h
        obtain ⟨d, hd, hwords⟩ := Option.map_eq_some_iff.mp hw
        obtain ⟨⟨name, a', n'⟩, hdev, hmk⟩ := Option.map_eq_some_iff.mp hd
        refine ⟨?_, d, hd, hwords, d.word0_above, ?_, hmk ▸ rfl⟩
        · simp [encode, Instr.op_of_device hdev, hd, hwords]
        · rw [d.word0_dir]
          exact d.dir.code_cases.2.2.2
      · cases h
    · cases h

/-- Settles O4: the words are evaluated. -/
theorem writtenWordsDecode : Obligations.WrittenWordsDecode := by
  unfold Obligations.WrittenWordsDecode
  decide

end Sys2Proof.Proofs
end

section
/-! SUPPORT. The statements of the bodies, and the engine step at each of them as one update of the state: the nine transactions (R413 to R421), the poll, the gap, the checks and the compares. -/

namespace Sys2Proof

/-- The operations whose body runs `WE()` (R460). -/
def Op.Handshakes (x : Op) : Prop := x = .writeEnable ∨ x = .en4b ∨ x = .erase ∨ x = .program

/-- The operations whose body ends in a mutating command (R526). -/
def Op.Mutates (x : Op) : Prop := x = .en4b ∨ x = .erase ∨ x = .program

/-- The operations whose body begins with argument checks (R523). -/
def Op.Checks (x : Op) : Prop := x = .erase ∨ x = .program ∨ x = .read ∨ x = .verifyErased ∨ x = .verifyData

/-- The operations that compare what they read (R601). -/
def Op.Verifies (x : Op) : Prop := x = .verifyErased ∨ x = .verifyData

end Sys2Proof

namespace Sys2Proof.Machine

variable {s t : State} {p : Pos} {x : Op} {m : Stmt} {name : DevName} {a n : Word}

/-! ## The statements of the bodies (R520) -/

/-- Which operation's body has which statement: `bodyStmt`, by the statement. -/
inductive BodyAt (x : Op) : Stmt → Prop
  | rsten (hx : x = .reset) : BodyAt x .rsten
  | rst (hx : x = .reset) : BodyAt x .rst
  | rdid (hx : x = .readId) : BodyAt x .rdid
  | wren (hx : x.Handshakes) : BodyAt x .wren
  | poll (hx : x = .waitBusy ∨ x.Handshakes) (c : Option PollTimes) : BodyAt x (.poll c)
  | gap (hx : x = .waitBusy ∨ x.Handshakes) (c : PollTimes) : BodyAt x (.gap c)
  | issue (hx : x.Mutates) : BodyAt x .issue
  | command (hx : x.Mutates) : BodyAt x .command
  | check (hx : x.Checks) : BodyAt x .check
  | read4 (hx : x = .read ∨ x.Verifies) : BodyAt x .read4
  | compare (hx : x.Verifies) (rd : List Byte) : BodyAt x (.compare rd)

theorem bodyAt_of_bodyStmt (h : bodyStmt x m = true) : BodyAt x m := by
  cases m <;> cases x <;> cases h <;> constructor <;>
    simp [Op.Handshakes, Op.Mutates, Op.Checks, Op.Verifies]

theorem bodyStmt_ne_finish (h : bodyStmt x m = true) (e : Err) : m ≠ .finish e := by
  rintro rfl
  cases x <;> cases h

/-- At a transaction the body is the device instruction that the statement issues (R2, R310). -/
theorem bodyOf_issues (hm : bodyStmt x m = true) (hi : (Pos.op m).issues x = some name) (s : State) :
    bodyOf x m s = exec (name.instr s.args.a s.args.n) s := by
  cases m <;> cases x <;> cases hm <;> cases hi <;> rfl

theorem exec_inBody_issues (h : s.inBody x m p) (hm : bodyStmt x m = true)
    (hi : (Pos.op m).issues x = some name) :
    exec s.opL.instr s = exec (name.instr (s.argsAt p).a (s.argsAt p).n) s := by
  rw [exec_inBody h (bodyStmt_ne_finish hm), bodyOf_issues hm hi, h.args]

/-! ## A transaction that no position awaits (log 16) -/

/-- The write data of a row: PP4's is the first `n` bytes of BUF, and no other row has any (R406, R420). -/
def State.wdataOf (s : State) (name : DevName) (n : Word) (w : List Byte) : Prop :=
  if name = .pp4 then s.buf.readList 0 n.toNat = some w else w = []

/-- The operand words of a row, as `exec` passes them to the formatter. -/
def State.rowDesc (s : State) (name : DevName) (a n : Word) : Desc :=
  s.desc name (if name = .se4 ∨ name = .pp4 ∨ name = .read4 then a else 0)
    (if name = .pp4 ∨ name = .read4 then n else 0)

theorem awaits_eq_some : s.awaits name = some p ↔ s.mstate = .run p ∧ p.issues s.opL = some name := by
  unfold State.awaits
  cases s.mstate with
  | idle => simp
  | run p' =>
    simp only [Option.ite_none_right_eq_some, Option.some.injEq, MState.run.injEq]
    exact ⟨fun ⟨hi, hp⟩ => ⟨hp, hp ▸ hi⟩, fun ⟨hp, hi⟩ => ⟨hp ▸ hi, hp⟩⟩

/-- RDSR is issued at a poll, and only there (R416, R452). -/
theorem issues_rdsr {o : Op} (h : p.issues o = some .rdsr) :
    ∃ c, p = .op (.poll c) ∨ ∃ k, p = .sub k (.poll c) := by
  cases p with
  | seq q => cases h
  | op m | sub k m =>
    cases m with
    | poll c => exact ⟨c, by simp⟩
    | command =>
      simp only [Pos.issues] at h
      split at h <;> cases h
    | _ => cases h

/-- Where no position waits for it, a device instruction is its transaction alone. -/
theorem exec_unawaited {w : List Byte} (h : s.awaits name = none) (hw : s.wdataOf name n w) :
    exec (name.instr a n) s = .next (s.xact (s.rowDesc name a n) w) := by
  cases name with
  | pp4 =>
    have hw : s.buf.readList 0 n.toNat = some w := hw
    simp only [DevName.instr, exec, execPp4, h, hw]
    rfl
  | rdsr =>
    obtain rfl : w = [] := hw
    have hp (p : Pos) (hm : s.mstate = .run p) : p.issues s.opL ≠ some .rdsr := fun hi => by
      simp [awaits_eq_some.mpr ⟨hm, hi⟩] at h
    simp only [DevName.instr, exec, execRdsr]
    split
    iterate 4 exact absurd rfl (hp _ ‹_›)
    rfl
  | _ =>
    obtain rfl : w = [] := hw
    simp only [DevName.instr, exec, execRsten, execRst, execRdid, execWren, execEn4bBus, execSe4, execRead4, h]
    rfl

/-! ## A transaction at the position that awaits it -/

/-- What follows a transaction: one value after `Ok`, by the received bytes, and one after an error. -/
def XactResult.elim {α : Type} (r : XactResult) (ok : List Byte → α) (err : Err → α) : α :=
  match r with
  | .ok b => ok b
  | .err e => err e

@[simp] theorem XactResult.elim_ok {α : Type} (b : List Byte) (f : List Byte → α) (g : Err → α) :
    (XactResult.ok b).elim f g = f b := rfl
@[simp] theorem XactResult.elim_err {α : Type} (e : Err) (f : List Byte → α) (g : Err → α) :
    (XactResult.err e).elim f g = g e := rfl

theorem execRsten_awaited (h : s.awaits .rsten = some p) :
    execRsten s = .next { s.xact (s.desc .rsten 0 0) [] with
      mstate := .run ((s.record (s.desc .rsten 0 0) []).result.elim (fun _ => p.goto .rst) p.leave) } := by
  simp only [execRsten, h]
  cases (s.record (s.desc .rsten 0 0) []).result <;> rfl

theorem execRst_awaited (h : s.awaits .rst = some p) :
    execRst s = .next { s.xact (s.desc .rst 0 0) [] with
      phase := (s.record (s.desc .rst 0 0) []).result.elim (fun _ => .idle) (fun _ => s.phase)
      mstate := .run ((s.record (s.desc .rst 0 0) []).result.elim (fun _ => p.leave .ok) p.leave) } := by
  simp only [execRst, h]
  cases (s.record (s.desc .rst 0 0) []).result <;> rfl

theorem execRdid_awaited (h : s.awaits .rdid = some p) :
    execRdid s = .next { s.xact (s.desc .rdid 0 0) [] with
      idBytes := (s.record (s.desc .rdid 0 0) []).result.elim packId (fun _ => s.idBytes)
      idv := (s.record (s.desc .rdid 0 0) []).result.elim (fun _ => true) (fun _ => (s.clearIdv p).idv)
      mstate := .run ((s.record (s.desc .rdid 0 0) []).result.elim (fun _ => p.leave .ok) p.leave) } := by
  simp only [execRdid, h]
  cases (s.record (s.desc .rdid 0 0) []).result <;> cases p <;> rfl

theorem execWren_awaited (h : s.awaits .wren = some p) :
    execWren s = .next { s.xact (s.desc .wren 0 0) [] with
      phase := (s.record (s.desc .wren 0 0) []).result.elim (fun _ => .wePending) (fun _ => .idle)
      mstate := .run ((s.record (s.desc .wren 0 0) []).result.elim (fun _ => p.goto (.poll none)) p.leave) } := by
  simp only [execWren, h]
  cases (s.record (s.desc .wren 0 0) []).result <;> rfl

theorem State.commandDone_eq (s : State) (p : Pos) (r : XactResult) :
    s.commandDone p r = { s with
      phase := r.elim (fun _ => .deviceBusy) (fun _ => .idle)
      mstate := .run (r.elim (fun _ => p.leave .ok) p.leave) } := by
  cases r <;> rfl

theorem execEn4bBus_awaited (h : s.awaits .en4b = some p) :
    execEn4bBus s = .next ((s.xact (s.desc .en4b 0 0) []).commandDone p (s.record (s.desc .en4b 0 0) []).result) := by
  simp only [execEn4bBus, h]

theorem execSe4_awaited (h : s.awaits .se4 = some p) :
    execSe4 a s = .next ((s.xact (s.desc .se4 a 0) []).commandDone p (s.record (s.desc .se4 a 0) []).result) := by
  simp only [execSe4, h]

theorem execPp4_awaited {w : List Byte} (h : s.awaits .pp4 = some p) (hw : s.buf.readList 0 n.toNat = some w) :
    execPp4 a n s = .next ((s.xact (s.desc .pp4 a n) w).commandDone p (s.record (s.desc .pp4 a n) w).result) := by
  simp only [execPp4, h, hw]

theorem execPp4_unwritten (hw : s.buf.readList 0 n.toNat = none) : execPp4 a n s = .fault .unwrittenBuf := by
  simp only [execPp4, hw]

theorem State.readDone_eq (s : State) (p : Pos) (b : List Byte) :
    s.readDone p b = { s with
      buf := if p.opOf s.opL = .read then s.buf.writeList 0 b else s.buf
      mstate := .run (if p.opOf s.opL = .read then p.leave .ok else p.goto (.compare b)) } := by
  unfold State.readDone
  cases p.opOf s.opL <;> rfl

theorem execRead4_awaited (h : s.awaits .read4 = some p) :
    execRead4 a n s = .next ((s.record (s.desc .read4 a n) []).result.elim
      ((s.xact (s.desc .read4 a n) []).readDone p) ((s.xact (s.desc .read4 a n) []).leave p)) := by
  simp only [execRead4, h]
  cases (s.record (s.desc .read4 a n) []).result <;> rfl

theorem execRdsr_awaited (h : s.awaits .rdsr = some p) :
    ∃ c, (p = .op (.poll c) ∨ ∃ k, p = .sub k (.poll c)) ∧
      execRdsr s = .next ((s.pollEntry c).pollFrom p (s.loopEntry c)) := by
  obtain ⟨hm, hi⟩ := awaits_eq_some.mp h
  obtain ⟨c, hc⟩ := issues_rdsr hi
  refine ⟨c, hc, ?_⟩
  obtain rfl | ⟨k, rfl⟩ := hc <;> cases c <;> simp only [execRdsr, hm] <;> rfl

/-- The ends of one poll (R452, R453, R458, R460, R470), as updates of the state: it failed, its byte satisfies the predicate, or it does not and the deadline was reached or not. -/
inductive PollCase (s : State) (p : Pos) (t0 : Word) (t : State) : Prop
  | failed (e : Err) (hr : (s.record (s.desc .rdsr 0 0) []).result = .err e)
      (ht : t = { s.xact (s.desc .rdsr 0 0) [] with
        phase := if p.opOf s.opL = .waitBusy then s.phase else .idle, mstate := .run (p.leave e) })
  | done (b : Byte) (hr : (s.record (s.desc .rdsr 0 0) []).result = .ok [b])
      (hp : pollPred s.par (p.opOf s.opL) b = true)
      (ht : t = { s.xact (s.desc .rdsr 0 0) [] with
        sr := b
        phase := if p.opOf s.opL = .waitBusy then (if s.phase = .deviceBusy then .idle else s.phase) else .weLatched
        mstate := .run (if p.opOf s.opL = .waitBusy ∨ p.opOf s.opL = .writeEnable then p.leave .ok
          else p.goto .issue) })
  | expired (b : Byte) (hr : (s.record (s.desc .rdsr 0 0) []).result = .ok [b])
      (hp : pollPred s.par (p.opOf s.opL) b = false)
      (hd : (pollTmo s.par (p.opOf s.opL) (s.argsAt p).t).toNat ≤
        (elapsed t0 (transferDraws (s.desc .rdsr 0 0) s.draws).now).toNat)
      (ht : t = { (s.xact (s.desc .rdsr 0 0) []).afterNow with
        sr := b, phase := if p.opOf s.opL = .waitBusy then s.phase else .idle, mstate := .run (p.leave .timeout) })
  | again (b : Byte) (c : PollTimes) (hr : (s.record (s.desc .rdsr 0 0) []).result = .ok [b])
      (hp : pollPred s.par (p.opOf s.opL) b = false)
      (hc : c = ⟨t0, (transferDraws (s.desc .rdsr 0 0) s.draws).now⟩)
      (hd : (elapsed t0 c.tlast).toNat < (pollTmo s.par (p.opOf s.opL) (s.argsAt p).t).toNat)
      (ht : t = { (s.xact (s.desc .rdsr 0 0) []).afterNow with
        sr := b, mstate := .run (if s.par.pollGapMs = 0 then p.goto (.poll (some c)) else p.goto (.gap c)) })

theorem pollFrom_cases (s : State) (p : Pos) (t0 : Word) : PollCase s p t0 (s.pollFrom p t0) := by
  obtain ⟨e, he⟩ | ⟨b, hb⟩ := transfer_rdsr_result s.par.tBusMs s.par.ins [] s.draws
  · exact .failed e he ((pollFrom_err he).trans (State.pollFail_eq ..))
  · cases hp : pollPred s.par (p.opOf s.opL) b with
    | true => exact .done b hb hp ((pollFrom_done hb hp).trans (State.pollDone_eq ..))
    | false =>
      have hagain := pollFrom_again (t0 := t0) hb hp
      by_cases hd : (pollTmo s.par (p.opOf s.opL) (s.argsAt p).t).toNat ≤
          (elapsed t0 (transferDraws (s.desc .rdsr 0 0) s.draws).now).toNat
      · refine .expired b hb hp hd (hagain.trans ?_)
        rw [pollTmo_eq] at hd
        exact (State.pollAgain_expired (by exact hd)).trans (State.pollFail_eq ..)
      · refine .again b _ hb hp rfl (Nat.lt_of_not_le hd) (hagain.trans ?_)
        rw [pollTmo_eq] at hd
        exact State.pollAgain_open (by exact Nat.lt_of_not_le hd)

/-- `Ok` of a row that reads carries exactly `DLEN` bytes (R401, R410). -/
theorem transfer_result_length {tmo : Word} {d : Desc} {w b : List Byte} {q : Draws} (hd : d.dir = .read)
    (h : (transfer tmo d w q).result = .ok b) : b.length = d.dlen.toNat := by
  obtain ⟨hok, rfl⟩ := BusRecord.result_ok h
  rw [transfer_rdata_length, if_pos ⟨hd, hok⟩]

/-- READ's transaction writes the bytes to BUF in the same step (R555). -/
theorem exec_read4_read (h : s.inBody .read .read4 p) :
    exec s.opL.instr s = .next { s.xact (s.desc .read4 (s.argsAt p).a (s.argsAt p).n) [] with
      buf := (s.record (s.desc .read4 (s.argsAt p).a (s.argsAt p).n) []).result.elim (s.buf.writeList 0) fun _ => s.buf
      mstate := .run ((s.record (s.desc .read4 (s.argsAt p).a (s.argsAt p).n) []).result.elim
        (fun _ => p.leave .ok) p.leave) } := by
  rw [exec_inBody_issues h rfl rfl]
  refine (execRead4_awaited (h.awaits rfl)).trans ?_
  cases (s.record (s.desc .read4 (s.argsAt p).a (s.argsAt p).n) []).result with
  | err e => rfl
  | ok b =>
    simp only [XactResult.elim_ok, State.readDone_eq, State.xact_opL, h.opOf, if_true]
    rfl

/-- A verify operation holds the bytes for its compare step (R601). -/
theorem exec_read4_verifies (hx : x.Verifies) (h : s.inBody x .read4 p) :
    exec s.opL.instr s = .next { s.xact (s.desc .read4 (s.argsAt p).a (s.argsAt p).n) [] with
      mstate := .run ((s.record (s.desc .read4 (s.argsAt p).a (s.argsAt p).n) []).result.elim
        (fun b => p.goto (.compare b)) p.leave) } := by
  have hm : bodyStmt x .read4 = true := by obtain rfl | rfl := hx <;> rfl
  have hread : x ≠ .read := by obtain rfl | rfl := hx <;> decide
  rw [exec_inBody_issues h hm rfl]
  refine (execRead4_awaited (h.awaits rfl)).trans ?_
  cases (s.record (s.desc .read4 (s.argsAt p).a (s.argsAt p).n) []).result with
  | err e => rfl
  | ok b =>
    simp only [XactResult.elim_ok, State.readDone_eq, State.xact_opL, h.opOf, hread, if_false]

/-! ## The statements without a transaction -/

theorem gapStep_run {c : PollTimes} (h : s.mstate = .run p) :
    gapStep c s = .next { s with
      draws := s.draws.afterNow
      mstate := .run (if s.par.pollGapMs.toNat ≤ (elapsed c.tlast s.draws.now).toNat ∨
          (pollTmo s.par (p.opOf s.opL) (s.argsAt p).t).toNat ≤ (elapsed c.t0 s.draws.now).toNat
        then p.goto (.poll (some c)) else p) } := by
  simp only [gapStep, h, gapOver, deadline, Bool.or_eq_true, decide_eq_true_eq]
  split
  · rfl
  · rw [← h]
    rfl

theorem issueStep_run (h : s.mstate = .run p) :
    issueStep s = .next { s with phase := .cmdIssued, mstate := .run (p.goto .command) } := by
  simp only [issueStep, h]
  rfl

theorem readRange_iff : readRange a n = true ↔ n.toNat ≠ 0 ∧ a.toNat + n.toNat ≤ 2 ^ 32 := by
  rw [readRange, Bool.and_eq_true, decide_eq_true_eq, decide_eq_true_eq, Config.addrBits]

theorem programRange_iff (par : Params) : programRange par a n = true ↔ n.toNat ≠ 0 ∧
    n.toNat ≤ par.pageSize.toNat ∧ a.toNat % par.pageSize.toNat + n.toNat ≤ par.pageSize.toNat := by
  simp only [programRange, Bool.and_eq_true, decide_eq_true_eq, and_assoc]

theorem eraseArgs_iff (par : Params) : eraseArgs par a n = true ↔ n.toNat = par.subsectorSize.toNat ∧
    (par.eraseAlignCheck = true → a.toNat % par.subsectorSize.toNat = 0) := by
  cases h : par.eraseAlignCheck <;> simp [eraseArgs, eraseAligned, h, BitVec.toNat_inj]

theorem readArgs_iff (par : Params) : readArgs par a n = true ↔
    n.toNat ≠ 0 ∧ n.toNat ≤ par.bufSize ∧ a.toNat + n.toNat ≤ 2 ^ 32 := by
  rw [readArgs, Bool.and_eq_true, decide_eq_true_eq, readRange_iff, and_left_comm]

/-- The statement after the argument checks (R523). -/
def afterCheck (x : Op) : Stmt := if x = .erase ∨ x = .program then .wren else .read4

theorem exec_check (hx : x.Checks) (h : s.inBody x .check p) :
    exec s.opL.instr s = .next { s with mstate := .run (if argsOk x s.par (s.argsAt p).a (s.argsAt p).n = true
      then p.goto (afterCheck x) else p.leave .invalidArgument) } := by
  have hbody : bodyOf x .check s = checkStep (afterCheck x) s := by
    obtain rfl | rfl | rfl | rfl | rfl := hx <;> rfl
  rw [exec_inBody h (by simp), hbody, checkStep_run h.mstate, h.opOf]
  split <;> rfl

theorem State.compareWith_some {rd xs : List Byte} {k : Nat} {e o : Byte}
    (h : firstMismatch rd xs 0 = some (k, e, o)) : s.compareWith p rd xs = { s with
      mmoff := BitVec.ofNat 32 k, mmExp := e, mmObs := o, mstate := .run (p.leave .verifyMismatch) } := by
  simp only [State.compareWith, h]
  rfl

theorem State.compareWith_none {rd xs : List Byte} (h : firstMismatch rd xs 0 = none) :
    s.compareWith p rd xs = { s with mstate := .run (p.leave .ok) } := by
  simp only [State.compareWith, h]
  rfl

theorem exec_compareErased {rd : List Byte} (h : s.inBody .verifyErased (.compare rd) p) :
    exec s.opL.instr s =
      .next (s.compareWith p rd (List.replicate (s.argsAt p).n.toNat s.par.erasedByte)) := by
  rw [exec_inBody h (by simp)]
  simp only [bodyOf, verifyErasedBody, compareErased, h.mstate]

theorem exec_compareData {rd xs : List Byte} (h : s.inBody .verifyData (.compare rd) p)
    (hx : s.buf.readList 0 (s.argsAt p).n.toNat = some xs) :
    exec s.opL.instr s = .next (s.compareWith p rd xs) := by
  rw [exec_inBody h (by simp)]
  simp only [bodyOf, verifyDataBody, compareData, h.mstate, hx]

theorem exec_compareData_unwritten {rd : List Byte} (h : s.inBody .verifyData (.compare rd) p)
    (hx : s.buf.readList 0 (s.argsAt p).n.toNat = none) : exec s.opL.instr s = .fault .unwrittenBuf := by
  rw [exec_inBody h (by simp)]
  simp only [bodyOf, verifyDataBody, compareData, h.mstate, hx]

/-- A range whose bytes are all written reads as the list of them. -/
theorem Memory.exists_readList {b : Memory} {n : Nat} {f : Nat → Byte} (h : ∀ k, k < n → b.read k = some (f k)) :
    ∃ xs, b.readList 0 n = some xs ∧ xs.length = n ∧ ∀ k, k < n → xs.getD k 0 = f k := by
  cases hxs : b.readList 0 n with
  | none =>
    obtain ⟨k, hk, hn⟩ := Memory.readList_eq_none.mp hxs
    simp [h k hk] at hn
  | some xs =>
    obtain ⟨hlen, hread⟩ := Memory.readList_eq_some.mp hxs
    refine ⟨xs, rfl, hlen, fun k hk => ?_⟩
    simpa [h k hk, eq_comm] using hread k hk

/-! ## SELFTEST's own statements (R610) -/

theorem exec_selftest_seq {q : Seq} (h : s.runs .selftest (.seq q)) : exec .selftest s = .next (seqStep q s) := by
  obtain ⟨hb, ho, hp⟩ := h
  rw [← exec_run_seq hb ho hp, ho]
  rfl

end Sys2Proof.Machine

/-! ## The statements of 40_transaction.md to 43_verify_selftest.md, step by step -/

namespace Sys2Proof.Proofs
open Sys2Proof Sys2Proof.Machine

/-- Settles O17: a legal position that issues a transaction is a statement of a body. -/
theorem engineStepRunsDeviceInstruction : Obligations.EngineStepRunsDeviceInstruction := by
  rintro s o p i ⟨hb, rfl, hp⟩ hl hi
  obtain ⟨name, hname, rfl⟩ : ∃ name, p.issues s.opL = some name ∧ name.instr s.args.a s.args.n = i := by
    simpa [State.busInstr, hp] using hi
  obtain ⟨x, m, h, hm⟩ | ⟨q, rfl, -⟩ | ⟨e, rfl, -⟩ := legal_cases hb hp hl
  · rw [h.args]
    exact exec_inBody_issues h hm (h.issues ▸ hname)
  · cases hname
  · cases hname

/-- Settles O19. -/
theorem programOfUnwrittenDataFaults : Obligations.ProgramOfUnwrittenDataFaults := fun s a n k hk hn =>
  execPp4_unwritten (Memory.readList_eq_none.mpr ⟨k, hk, by simpa using hn⟩)

/-- Settles O23. -/
theorem resetSendsRstenThenRst : Obligations.ResetSendsRstenThenRst := fun _ _ =>
  ⟨fun h => (exec_inBody_issues h rfl rfl).trans (execRsten_awaited (h.awaits rfl)),
    fun h => (exec_inBody_issues h rfl rfl).trans (execRst_awaited (h.awaits rfl))⟩

/-- Settles O25. -/
theorem writeEnableHandshakeBegins : Obligations.WriteEnableHandshakeBegins := by
  intro s p x hx h
  have hm : bodyStmt x .wren = true := by obtain rfl | rfl | rfl | rfl := hx <;> rfl
  exact (exec_inBody_issues h hm rfl).trans (execWren_awaited (h.awaits rfl))

/-- Settles O28: the gap's deadline is the poll loop's. -/
theorem gapWaitStep : Obligations.GapWaitStep := by
  intro s p x c hx h
  have hbody : bodyOf x (.gap c) s = gapStep c s := by obtain rfl | rfl | rfl | rfl | rfl := hx <;> rfl
  rw [exec_inBody h (by simp), hbody, gapStep_run h.mstate, h.opOf, pollTmo_eq]

/-- Settles O24: by the transaction's result, whose bytes are three. -/
theorem readIdStoresIdentity : Obligations.ReadIdStoresIdentity := by
  intro s p h d
  have hexec := (exec_inBody_issues h rfl rfl).trans (execRdid_awaited (h.awaits rfl))
  refine ⟨fun b0 b1 b2 hr => ?_, fun e hr => ?_, ?_⟩
  · rw [hexec, show (s.record (s.desc .rdid 0 0) []).result = _ from hr]
    rfl
  · rw [hexec, show (s.record (s.desc .rdid 0 0) []).result = _ from hr]
    cases p <;> rfl
  · cases hr : (transfer s.par.tBusMs d [] s.draws).result with
    | err e => exact .inr ⟨e, rfl⟩
    | ok b =>
      obtain ⟨b0, b1, b2, rfl⟩ := List.length_eq_three.mp (transfer_result_length rfl hr)
      exact .inl ⟨b0, b1, b2, rfl⟩

/-- Settles O29: `argsOk` is the checks of the operation's rule. -/
theorem argumentChecks : Obligations.ArgumentChecks := by
  intro s p x h hx a n good
  have hgood : argsOk x s.par (s.argsAt p).a (s.argsAt p).n = true ↔ good := by
    obtain rfl | rfl | rfl | rfl | rfl := hx
    · exact eraseArgs_iff s.par
    · exact programRange_iff s.par
    · exact readArgs_iff s.par
    · exact readRange_iff
    · exact readArgs_iff s.par
  rw [exec_check hx h]
  refine ⟨fun hok => ?_, fun hbad => ?_⟩
  · rw [if_pos (hgood.mpr hok), afterCheck]
  · rw [if_neg (mt hgood.mp hbad)]

/-- Settles O30. -/
theorem mutatingCommand : Obligations.MutatingCommand := by
  intro s p x hx
  refine ⟨fun h => ?_, fun h w hw => ?_⟩
  · have hbody : bodyOf x .issue s = issueStep s := by obtain rfl | rfl | rfl := hx <;> rfl
    rw [exec_inBody h (by simp), hbody, issueStep_run h.mstate]
  · intro d
    obtain rfl | rfl | rfl := hx
    · obtain rfl : w = [] := hw
      rw [exec_inBody_issues h rfl rfl]
      exact (execEn4bBus_awaited (h.awaits rfl)).trans (congrArg _ (State.commandDone_eq ..))
    · obtain rfl : w = [] := hw
      rw [exec_inBody_issues h rfl rfl]
      exact (execSe4_awaited (h.awaits rfl)).trans (congrArg _ (State.commandDone_eq ..))
    · rw [exec_inBody_issues h rfl rfl]
      exact (execPp4_awaited (h.awaits rfl) hw).trans (congrArg _ (State.commandDone_eq ..))

/-- Settles O31. -/
theorem readFillsBuf : Obligations.ReadFillsBuf := by
  intro s p h d
  refine ⟨fun b hr => ⟨transfer_result_length rfl hr, s.buf.writeList 0 b, ?_, fun k hk => ?_, fun k hk => ?_⟩,
    fun e hr => ?_⟩
  · rw [exec_read4_read h, show (s.record (s.desc .read4 (s.argsAt p).a (s.argsAt p).n) []).result = _ from hr]
    rfl
  · simp [Memory.read_writeList, hk]
  · simp [Memory.read_writeList, Nat.not_lt.mpr hk]
  · rw [exec_read4_read h, show (s.record (s.desc .read4 (s.argsAt p).a (s.argsAt p).n) []).result = _ from hr]
    rfl

/-- Settles O32. -/
theorem verifyReadsTheSpan : Obligations.VerifyReadsTheSpan := fun _ _ _ => exec_read4_verifies

/-- Settles O33: the compare is `firstMismatch` against the constant list. -/
theorem verifyErasedCompare : Obligations.VerifyErasedCompare := by
  intro s p rd h hlen
  have hget (k : Nat) (hk : k < rd.length) :
      (List.replicate rd.length s.par.erasedByte).getD k 0 = s.par.erasedByte := by
    simp [hk]
  have hl : rd.length = (List.replicate rd.length s.par.erasedByte).length := by simp
  rw [exec_compareErased h, ← hlen]
  refine ⟨fun k hk hne hlt => ?_, fun hall => ?_⟩
  · have hmis := firstMismatch_some rd _ 0 k hl hk (by rwa [hget k hk])
      fun i hi => by rw [hlt i hi, hget i (hi.trans hk)]
    rw [State.compareWith_some hmis, hget k hk, Nat.zero_add]
  · rw [State.compareWith_none (firstMismatch_none rd _ 0 hl fun i hi => by rw [hall i hi, hget i hi])]

/-- Settles O34: the compare is `firstMismatch` against the bytes of BUF, read before it. -/
theorem verifyDataCompare : Obligations.VerifyDataCompare := by
  intro s p rd h hlen
  rw [hlen]
  refine ⟨fun ⟨k, hk, hn⟩ => ?_, fun f hf => ?_⟩
  · exact exec_compareData_unwritten h (Memory.readList_eq_none.mpr ⟨k, hk, by simpa using hn⟩)
  · obtain ⟨xs, hxs, hlx, hget⟩ := Memory.exists_readList hf
    have hl : rd.length = xs.length := hlen.trans hlx.symm
    rw [exec_compareData h hxs]
    refine ⟨fun k hk hne hlt => ?_, fun hall => ?_⟩
    · have hmis := firstMismatch_some rd xs 0 k hl (hlen ▸ hk) (by rwa [hget k hk])
        fun i hi => by rw [hlt i hi, hget i (hi.trans hk)]
      rw [State.compareWith_some hmis, hget k hk, Nat.zero_add]
    · rw [State.compareWith_none (firstMismatch_none rd xs 0 hl fun i hi => by
        rw [hall i (hlen ▸ hi), hget i (hlen ▸ hi)])]

/-- Settles O35. -/
theorem selftestOwnSteps : Obligations.SelftestOwnSteps := by
  intro s
  refine ⟨fun n h => ?_, exec_selftest_seq, fun ts h => ?_, fun n h => ?_, fun n e => exec_selftest_seq⟩
  · rw [exec_selftest_seq h]
    cases n <;> rfl
  · rw [exec_selftest_seq h]
    simp only [seqStep, settled, deadline, decide_eq_true_eq]
    split
    · rfl
    · rw [← h.2.2]
      rfl
  · rw [exec_selftest_seq h]
    cases n <;> rfl

/-- Settles O36. -/
theorem selftestSequence : Obligations.SelftestSequence := by
  refine ⟨fun _ _ => rfl, fun _ _ => rfl, fun _ _ _ => rfl, fun _ _ => rfl, fun k m e he => ?_, fun k m => ?_,
    fun s k m => ⟨rfl, ?_, ?_, ?_, ?_⟩⟩
  · cases e with
    | ok => exact absurd rfl he
    | _ => rfl
  · cases k <;> rfl
  · rintro (rfl | rfl) <;> rfl
  · rintro (rfl | rfl) <;> rfl
  · rintro (rfl | rfl) <;> rfl
  · rintro rfl
    rfl

end Sys2Proof.Proofs
end

section
/-! SUPPORT. What a host access reaches (R101, R118, R119, R140), and the bytes of a word (R140). -/

namespace Sys2Proof.Machine

variable {s t : State} {q : List Input} {par : Params} {off : BitVec 16} {w : Width} {v : Word}

/-! ## The target of an access -/

theorem regAt_aligned {i : Nat} {r : Reg} (h : regAt i = some r) : i % 4 = 0 := by
  unfold regAt at h
  split at h <;> first | rfl | cases h

theorem target_badReg (ha : off.toNat < 0x28) (hw : w ≠ .word ∨ off.toNat % 4 ≠ 0) :
    target par off w = .badReg := by
  simp only [target, regEnd, ha, if_true]
  cases hr : regAt off.toNat with
  | none => rfl
  | some r => exact if_neg (hw.resolve_right (not_not.mpr (regAt_aligned hr)))

theorem target_unmapped (h : (0x28 ≤ off.toNat ∧ off.toNat + w.bytes ≤ 0x100) ∨ 0x100 + par.bufSize ≤ off.toNat) :
    target par off w = .unmapped := by
  have hreg : ¬ off.toNat < regEnd := by unfold regEnd; omega
  have hbuf : ¬ (bufStart < off.toNat + w.bytes ∧ off.toNat < bufStart + par.bufSize) := by unfold bufStart; omega
  simp only [target, hreg, hbuf, if_false]

theorem width_mod (w : Width) {i : Nat} (h : bufStart ≤ i) : (i - bufStart) % w.bytes = i % w.bytes := by
  unfold bufStart at *
  cases w <;> simp only [Width.bytes] <;> omega

theorem target_buf (h : 0x100 ≤ off.toNat) (hm : off.toNat % w.bytes = 0)
    (he : off.toNat + w.bytes ≤ 0x100 + par.bufSize) : target par off w = .buf (off.toNat - 0x100) := by
  have hpos : 0 < w.bytes := by cases w <;> decide
  have hreg : ¬ off.toNat < regEnd := by unfold regEnd; omega
  have hbuf : bufStart < off.toNat + w.bytes ∧ off.toNat < bufStart + par.bufSize := by unfold bufStart; omega
  simp only [target, hreg, hbuf, if_false, and_self, if_true]
  exact if_pos ⟨h, (width_mod w h).trans hm, he⟩

/-- An access that reaches BUF lies within it. -/
theorem target_eq_buf {i : Nat} (h : target par off w = .buf i) :
    off.toNat = bufStart + i ∧ i + w.bytes ≤ par.bufSize := by
  simp only [target] at h
  split at h
  · split at h
    · split at h <;> cases h
    · cases h
  · split at h
    · split at h
      · rename_i hc
        obtain ⟨hle, -, hlt⟩ := hc
        obtain rfl := Target.buf.inj h
        exact ⟨(Nat.add_sub_of_le hle).symm, by omega⟩
      · cases h
    · cases h

theorem target_badBuf (h0 : 0x28 ≤ off.toNat) (h1 : 0x100 < off.toNat + w.bytes)
    (h2 : off.toNat < 0x100 + par.bufSize)
    (hbad : off.toNat < 0x100 ∨ off.toNat % w.bytes ≠ 0 ∨ 0x100 + par.bufSize < off.toNat + w.bytes) :
    target par off w = .badBuf := by
  have hreg : ¬ off.toNat < regEnd := by unfold regEnd; omega
  have hbuf : bufStart < off.toNat + w.bytes ∧ off.toNat < bufStart + par.bufSize := ⟨h1, h2⟩
  simp only [target, hreg, hbuf, if_false, and_self, if_true]
  refine if_neg fun ⟨h, hm, he⟩ => ?_
  rw [width_mod w h] at hm
  unfold bufStart at h he
  omega

/-! ## The step of an access -/

theorem step_read (h : s.inbox = .host (.read off w) :: q) : step s = hostRead off w { s with inbox := q } :=
  step_hostAccess h rfl

theorem step_write (h : s.inbox = .host (.write off w v) :: q) (ht : target s.par off w ≠ .reg .cmd) :
    step s = hostWrite off w v { s with inbox := q } :=
  step_hostAccess h (if_neg fun hc => ht hc.1)

/-! ## The bytes of a word (R140) -/

theorem unpackBytes_length (n : Nat) (v : Word) : (unpackBytes n v).length = n := by
  induction n generalizing v with
  | zero => rfl
  | succ n ih => simp [unpackBytes, ih]

theorem unpackBytes_getD {n k : Nat} (hk : k < n) (v : Word) :
    (unpackBytes n v).getD k 0 = v.extractLsb' (8 * k) 8 := by
  induction n generalizing v k with
  | zero => cases hk
  | succ n ih =>
    cases k with
    | zero => ext i; simp [unpackBytes]
    | succ k =>
      rw [unpackBytes, List.getD_cons_succ, ih (Nat.lt_of_succ_lt_succ hk)]
      ext i hi
      simp
      congr 1
      omega

theorem packBytes_getLsbD (bs : List Byte) {i : Nat} (hi : i < 32) :
    (packBytes bs).getLsbD i = (bs.getD (i / 8) 0).getLsbD (i % 8) := by
  induction bs generalizing i with
  | nil => simp [packBytes]
  | cons b bs ih =>
    simp only [packBytes, BitVec.getLsbD_or, BitVec.getLsbD_shiftLeft, BitVec.getLsbD_setWidth, hi,
      decide_true, Bool.true_and]
    by_cases h8 : i < 8
    · simp [h8, Nat.div_eq_of_lt h8, Nat.mod_eq_of_lt h8]
    · have hdiv : i / 8 = (i - 8) / 8 + 1 := by omega
      have hmod : i % 8 = (i - 8) % 8 := by omega
      rw [hdiv, hmod, List.getD_cons_succ, ← ih (by omega), BitVec.getLsbD_of_ge b i (by omega)]
      simp [h8]

/-- Byte `k` of the word is byte `k` of the list. -/
theorem packBytes_extract (bs : List Byte) {k : Nat} (hk : k < 4) :
    (packBytes bs).extractLsb' (8 * k) 8 = bs.getD k 0 := by
  refine BitVec.eq_of_getLsbD_eq fun i hi => ?_
  rw [BitVec.getLsbD_extractLsb', packBytes_getLsbD bs (by omega)]
  have hdiv : (8 * k + i) / 8 = k := by omega
  have hmod : (8 * k + i) % 8 = i := by omega
  simp [hdiv, hmod, hi]

theorem packBytes_lt (bs : List Byte) : (packBytes bs).toNat < 2 ^ (8 * bs.length) := by
  refine Nat.lt_pow_two_of_testBit _ fun i hi => ?_
  change (packBytes bs).getLsbD i = false
  by_cases h32 : i < 32
  · rw [packBytes_getLsbD bs h32, List.getD_eq_default _ _ (by omega)]
    simp
  · exact BitVec.getLsbD_of_ge _ _ (by omega)

/-! ## The fields of the registers (R106, R114, R115, R117) -/

theorem extractLsb'_setWidth_above {m n : Nat} (x : BitVec m) {i k : Nat} (h : m ≤ i) :
    (x.setWidth n).extractLsb' i k = 0 := by
  ext j hj
  simp [BitVec.getLsbD_of_ge x (i + j) (by omega)]

theorem State.status_flags (s : State) : s.status.getLsbD 0 = s.busy ∧ s.status.getLsbD 1 = s.done ∧
    s.status.getLsbD 2 = s.cmdrej ∧ s.status.getLsbD 3 = s.idv ∧ s.status.getLsbD 7 = false := by
  simp only [State.status, BitVec.getLsbD_append]
  simp

theorem State.status_codes (s : State) : s.status.extractLsb' 4 3 = s.phase.code ∧
    s.status.extractLsb' 8 4 = s.err.code ∧ s.status.extractLsb' 12 4 = s.stepNo ∧
    s.status.extractLsb' 16 16 = 0 := by
  simp (disch := decide) only [State.status, BitVec.extractLsb'_append_eq_of_le, Nat.reduceSub,
    BitVec.extractLsb'_append_eq_right]
  simp

theorem State.mmdata_fields (s : State) : s.mmdata.extractLsb' 0 8 = s.mmExp ∧ s.mmdata.extractLsb' 8 8 = s.mmObs ∧
    s.mmdata.extractLsb' 16 16 = 0 := by
  refine ⟨?_, ?_, extractLsb'_setWidth_above _ (by decide)⟩
  · exact (BitVec.extractLsb'_setWidth_of_le (by decide)).trans BitVec.extractLsb'_append_eq_right
  · exact (BitVec.extractLsb'_setWidth_of_le (by decide)).trans BitVec.extractLsb'_append_eq_left

end Sys2Proof.Machine

/-! ## The statements of 10_state.md on the host port -/

namespace Sys2Proof.Proofs
open Sys2Proof Sys2Proof.Machine

/-- Settles O7. -/
theorem statusFields : Obligations.StatusFields := by
  refine ⟨fun s => ?_, fun s v => ?_, fun s hi => ?_⟩
  · obtain ⟨hbusy, hdone, hrej, hidv, hres⟩ := s.status_flags
    obtain ⟨hphase, herr, hstep, habove⟩ := s.status_codes
    refine ⟨hbusy, hdone, hrej, hidv, hphase.trans ?_, hres, herr.trans ?_, hstep, habove⟩
    · cases s.phase <;> rfl
    · cases s.err <;> rfl
  · simp only [hostAccess, hostWrite, show target s.par 0x014 .word = _ from target_register s.par .status]
    rfl
  · obtain ⟨hbusy, hdone, -⟩ := s.status_flags
    rw [hbusy, hdone, Bool.eq_false_iff, ne_eq, Bool.and_eq_true]
    exact hi.exclusive

/-- Settles O8. -/
theorem hostReadsRegisters : Obligations.HostReadsRegisters := by
  intro s q r h
  refine ⟨?_, by cases r <;> rfl, ?_, rfl, rfl, rfl, rfl, rfl, rfl, rfl, rfl, s.mmdata_fields⟩
  · simp only [step_read h, hostRead, target_register]
    rfl
  · rw [State.readReg]
    cases s.opL <;> rfl

/-- Settles O10. -/
theorem unmappedOffsets : Obligations.UnmappedOffsets := by
  intro s q off w v h
  have ht : target s.par off w = .unmapped := target_unmapped h
  refine ⟨fun hq => ?_, fun hq => ?_⟩
  · simp only [step_read hq, hostRead, ht]
    rfl
  · simp only [step_write hq (by simp [ht]), hostWrite, ht]

/-- Settles O11. -/
theorem registerAccessWidth : Obligations.RegisterAccessWidth := by
  refine ⟨fun s q off w v ha hw hq => ?_, fun s => ?_⟩
  · have ht : target s.par off w = .badReg := target_badReg ha hw
    obtain hq | hq := hq
    · simp only [step_read hq, hostRead, ht]
    · simp only [step_write hq (by simp [ht]), hostWrite, ht]
  · exact ⟨s.opL.code_bits_above, s.status_flags.2.2.2.2, s.status_codes.2.2.2,
      extractLsb'_setWidth_above _ (by decide), extractLsb'_setWidth_above _ (by decide), s.mmdata_fields.2.2⟩

/-- Settles O12. -/
theorem bufWrites : Obligations.BufWrites := by
  intro s q off w v h0 h1 h2 hq
  have refused (hbad : off.toNat < 0x100 ∨ off.toNat % w.bytes ≠ 0 ∨ 0x100 + s.par.bufSize < off.toNat + w.bytes) :
      step s = .refused .bufAccess := by
    have ht : target s.par off w = .badBuf := target_badBuf h0 h1 h2 hbad
    simp only [step_write hq (by simp [ht]), hostWrite, ht]
  have written (h : 0x100 ≤ off.toNat) (hm : off.toNat % w.bytes = 0)
      (he : off.toNat + w.bytes ≤ 0x100 + s.par.bufSize) :
      step s = .next (State.writeBuf { s with inbox := q } (off.toNat - 0x100) w v) := by
    have ht : target s.par off w = .buf (off.toNat - 0x100) := target_buf h hm he
    simp only [step_write hq (by simp [ht]), hostWrite, ht]
  refine ⟨fun h => refused (.inl h), fun h => refused (.inr h), fun h hm he hb => ?_, fun h hm he hb => ?_⟩
  · rw [written h hm he, State.writeBuf, if_pos hb]
  · refine ⟨_, (written h hm he).trans (congrArg _ (if_neg (by simp [hb]))), fun k hk => ?_, fun i hi => ?_⟩
    · rw [Memory.read_writeList, unpackBytes_length, if_pos (by omega), Nat.add_sub_cancel_left, unpackBytes_getD hk]
    · rw [Memory.read_writeList, unpackBytes_length, if_neg (by omega)]

/-- Settles O13. -/
theorem bufReads : Obligations.BufReads := by
  intro s q off w h0 h1 h2 hq
  have refused (hbad : off.toNat < 0x100 ∨ off.toNat % w.bytes ≠ 0 ∨ 0x100 + s.par.bufSize < off.toNat + w.bytes) :
      step s = .refused .bufAccess := by
    have ht : target s.par off w = .badBuf := target_badBuf h0 h1 h2 hbad
    simp only [step_read hq, hostRead, ht]
  refine ⟨fun h => refused (.inl h), fun h => refused (.inr h), fun h hm he hn => ?_, fun h hm he f hf => ?_⟩
  all_goals have ht : target s.par off w = .buf (off.toNat - 0x100) := target_buf h hm he
  · simp only [step_read hq, hostRead, ht, Memory.readList_eq_none.mpr hn]
  · have hlist : s.buf.readList (off.toNat - 0x100) w.bytes = some ((List.range w.bytes).map f) :=
      Memory.readList_eq_some.mpr ⟨by simp, fun k hk => by simp [hf k hk, hk]⟩
    have hw : w.bytes ≤ 4 := by cases w <;> decide
    refine ⟨packBytes ((List.range w.bytes).map f), ?_, fun k hk => ?_, ?_⟩
    · simp only [step_read hq, hostRead, ht, hlist]
      rfl
    · rw [packBytes_extract _ (hk.trans_le hw)]
      simp [hk]
    · simpa using packBytes_lt ((List.range w.bytes).map f)

/-- Settles O14. -/
theorem acceptLatchesOperands : Obligations.AcceptLatchesOperands := by
  intro s o hb
  rw [exec_accept o hb]
  cases o <;> rfl

/-- Settles O16. -/
theorem stepRunsDecodedInstruction : Obligations.StepRunsDecodedInstruction := by
  refine ⟨fun s q v hb h => ?_, fun s o p q hr h => ?_, fun s o p hr h => ?_, fun s q hm h => ?_, fun s hm h => ?_⟩
  · rw [step_cmd_accept hb h]
    exact (exec_accept (s := { s with inbox := q }) (cmdOp v) hb).symm
  · obtain ⟨-, rfl, hp⟩ := hr
    have hat : s.engineAt = some p := State.engineAt_eq_some.mpr ⟨by simp [State.engineTurn, h], hp⟩
    rw [step_engineAt hat, h, List.tail_cons]
  · obtain ⟨-, rfl, hp⟩ := hr
    have hat : s.engineAt = some p := State.engineAt_eq_some.mpr ⟨by simp [State.engineTurn, h], hp⟩
    rw [step_engineAt hat, h, List.tail_nil, ← h]
  · rw [step_idle (by simp [State.engineTurn, h]) hm, h, List.tail_cons]
  · rw [step_idle (by simp [State.engineTurn, h]) hm, h, List.tail_nil, ← h]

end Sys2Proof.Proofs
end

section
/-! SUPPORT. What one device instruction can do (R403 to R421), at any position: its record, and each field it may write with the condition on which it does. -/

namespace Sys2Proof.Machine

variable {s t : State} {p : Pos} {name : DevName} {a n : Word} {w : List Byte} {r : BusRecord}

/-! ## The record of a transaction (R403) -/

/-- The calls of a transaction: a failed `send` alone, or a successful one with the data phase its row has (R403, R404). -/
theorem transfer_calls (tmo : Word) (d : Desc) (w : List Byte) (q : Draws) :
    (∃ x, x ≠ .ok ∧ (transfer tmo d w q).calls = [⟨.send, tmo, x⟩] ∧ (transfer tmo d w q).outcome = x ∧
      (transfer tmo d w q).rdata = []) ∨
    (d.dir = .none ∧ (transfer tmo d w q).calls = [⟨.send, tmo, .ok⟩] ∧ (transfer tmo d w q).outcome = .ok ∧
      (transfer tmo d w q).rdata = []) ∨
    (d.dir = .write ∧ ∃ x, (transfer tmo d w q).calls = [⟨.send, tmo, .ok⟩, ⟨.transmit, tmo, x⟩] ∧
      (transfer tmo d w q).outcome = x ∧ (transfer tmo d w q).rdata = []) ∨
    (d.dir = .read ∧ ∃ x, (transfer tmo d w q).calls = [⟨.send, tmo, .ok⟩, ⟨.receive, tmo, x⟩] ∧
      (transfer tmo d w q).outcome = x ∧
      (transfer tmo d w q).rdata.length = if x = .ok then d.dlen.toNat else 0) := by
  have hlen := transfer_rdata_length tmo d w q
  cases hsend : q.outcome with
  | ok =>
    cases hd : d.dir with
    | none => exact .inr (.inl (by simp [transfer, hsend, hd]))
    | write => exact .inr (.inr (.inl (by simp [transfer, hsend, hd])))
    | read =>
      refine .inr (.inr (.inr ⟨rfl, q.afterOutcome.outcome, ?_⟩))
      simp only [hd, true_and] at hlen
      refine ⟨?_, ?_, ?_⟩
      · simp [transfer, hsend, hd]
      · simp [transfer, hsend, hd]
      · rw [hlen]
        simp [transfer, hsend, hd]
  | busError | busTimeout => exact .inl (by simp [transfer, hsend])

/-! ## The fields a device instruction writes -/

/-- What holds of the state `t` after device instruction `name` in `s`, with record `r`. -/
structure DeviceStep (s : State) (name : DevName) (a n : Word) (w : List Byte) (r : BusRecord) (t : State) : Prop where
  /-- Nothing else is written. -/
  frame : t = { s with
    phase := t.phase, idv := t.idv, idBytes := t.idBytes, sr := t.sr, buf := t.buf
    mstate := t.mstate, bt := t.bt, draws := t.draws }
  /-- One record is appended, of the row's descriptor. -/
  bt : t.bt = s.bt ++ [r]
  record : ∃ q, r = transfer s.par.tBusMs (s.rowDesc name a n) w q
  phase : name = .rsten ∨ name = .rdid ∨ name = .read4 → t.phase = s.phase
  ident : name ≠ .rdid → t.idv = s.idv ∧ t.idBytes = s.idBytes
  idBytes : t.idBytes = s.idBytes ∨ r.outcome = .ok
  sr : t.sr = s.sr ∨ name = .rdsr ∧ r.outcome = .ok ∧ r.rdata = [t.sr]
  /-- Only READ's own READ4 writes BUF (R555). -/
  buf : t.buf = s.buf ∨ name = .read4 ∧ r.outcome = .ok ∧ t.buf = s.buf.writeList 0 r.rdata ∧
    ∃ p, s.mstate = .run p ∧ p.issues s.opL = some .read4 ∧ p.opOf s.opL = .read

/-- A step that writes `PHASE` and the position beside its transaction. -/
theorem DeviceStep.plain (f : Phase) (ms : MState) (hf : name = .rsten ∨ name = .rdid ∨ name = .read4 → f = s.phase) :
    DeviceStep s name a n w (s.record (s.rowDesc name a n) w)
      { s.xact (s.rowDesc name a n) w with phase := f, mstate := ms } :=
  ⟨rfl, rfl, ⟨s.draws, rfl⟩, hf, fun _ => ⟨rfl, rfl⟩, .inl rfl, .inl rfl, .inl rfl⟩

theorem DeviceStep.commandDone (p : Pos) (x : XactResult) (hn : name ≠ .rsten ∧ name ≠ .rdid ∧ name ≠ .read4) :
    DeviceStep s name a n w (s.record (s.rowDesc name a n) w) ((s.xact (s.rowDesc name a n) w).commandDone p x) := by
  rw [State.commandDone_eq]
  exact .plain _ _ (by simp [hn])

theorem State.rowDesc_rdsr (s : State) (a n : Word) : s.rowDesc .rdsr a n = s.desc .rdsr 0 0 := rfl

/-- A poll's step: its transaction, SR from its byte, and `PHASE`, the position and the draws beside it (R452). -/
theorem DeviceStep.polled {q : Draws} (f : Phase) (b : Byte) (ms : MState) (q' : Draws)
    (hr : r = transfer s.par.tBusMs (s.desc .rdsr 0 0) [] q) (hb : b = s.sr ∨ r.outcome = .ok ∧ r.rdata = [b]) :
    DeviceStep s .rdsr a n [] r
      { s with phase := f, sr := b, mstate := ms, bt := s.bt ++ [r], draws := q' } :=
  ⟨rfl, rfl, ⟨q, by rw [s.rowDesc_rdsr, hr]⟩, by simp, fun _ => ⟨rfl, rfl⟩, .inl rfl,
    hb.imp id fun h => ⟨rfl, h⟩, .inl rfl⟩

/-- A poll's transaction, as one update of the state before the poll. -/
theorem State.pollEntry_xact (s : State) (c : Option PollTimes) (d : Desc) :
    (s.pollEntry c).xact d [] = { s with
      bt := s.bt ++ [(s.pollEntry c).record d []], draws := transferDraws d (s.pollEntry c).draws } := by
  cases s
  rfl

theorem DeviceStep.poll {c : Option PollTimes} {t0 : Word} (h : PollCase (s.pollEntry c) p t0 t) :
    DeviceStep s .rdsr a n [] ((s.pollEntry c).record ((s.pollEntry c).desc .rdsr 0 0) []) t := by
  have hr : (s.pollEntry c).record ((s.pollEntry c).desc .rdsr 0 0) [] =
      transfer s.par.tBusMs (s.desc .rdsr 0 0) [] (s.pollEntry c).draws := rfl
  cases h with
  | failed e _ ht =>
    rw [ht, s.pollEntry_xact c]
    exact .polled _ _ _ _ hr (.inl rfl)
  | done b hb _ ht =>
    rw [ht, s.pollEntry_xact c]
    exact .polled _ b _ _ hr (.inr (BusRecord.result_ok hb))
  | expired b hb _ _ ht | again b _ hb _ _ _ ht =>
    rw [ht, s.pollEntry_xact c, State.afterNow]
    exact .polled _ b _ _ hr (.inr (BusRecord.result_ok hb))

/-- Every device instruction whose write data is written is one transaction (R403). -/
theorem exec_device (hw : s.wdataOf name n w) :
    ∃ t r, exec (name.instr a n) s = .next t ∧ DeviceStep s name a n w r t := by
  cases hp : s.awaits name with
  | none => exact ⟨_, _, exec_unawaited hp hw, .plain s.phase s.mstate fun _ => rfl⟩
  | some p =>
    cases name with
    | rsten =>
      obtain rfl : w = [] := hw
      exact ⟨_, _, execRsten_awaited hp, .plain s.phase _ fun _ => rfl⟩
    | rst =>
      obtain rfl : w = [] := hw
      exact ⟨_, _, execRst_awaited hp, .plain _ _ (by simp)⟩
    | wren =>
      obtain rfl : w = [] := hw
      exact ⟨_, _, execWren_awaited hp, .plain _ _ (by simp)⟩
    | en4b =>
      obtain rfl : w = [] := hw
      exact ⟨_, _, execEn4bBus_awaited hp, .commandDone p _ (by simp)⟩
    | se4 =>
      obtain rfl : w = [] := hw
      exact ⟨_, _, execSe4_awaited hp, .commandDone p _ (by simp)⟩
    | pp4 => exact ⟨_, _, execPp4_awaited hp hw, .commandDone p _ (by simp)⟩
    | rdid =>
      obtain rfl : w = [] := hw
      refine ⟨_, s.record (s.desc .rdid 0 0) [], execRdid_awaited hp,
        rfl, rfl, ⟨s.draws, rfl⟩, fun _ => rfl, by simp, ?_, .inl rfl, .inl rfl⟩
      obtain ⟨hok, -⟩ | ⟨-, hr⟩ | ⟨-, hr⟩ := (s.record (s.desc .rdid 0 0) []).result_cases
      · exact .inr hok
      all_goals exact .inl (by rw [hr]; rfl)
    | rdsr =>
      obtain rfl : w = [] := hw
      obtain ⟨c, -, hexec⟩ := execRdsr_awaited hp
      exact ⟨_, _, hexec, .poll (pollFrom_cases ..)⟩
    | read4 =>
      obtain rfl : w = [] := hw
      refine ⟨_, s.record (s.desc .read4 a n) [], execRead4_awaited hp, ?_⟩
      obtain ⟨hok, hr⟩ | ⟨-, hr⟩ | ⟨-, hr⟩ := (s.record (s.desc .read4 a n) []).result_cases
      · rw [hr, XactResult.elim_ok, State.readDone_eq]
        obtain ⟨hm, hi⟩ := awaits_eq_some.mp hp
        refine ⟨rfl, rfl, ⟨s.draws, rfl⟩, fun _ => rfl, fun _ => ⟨rfl, rfl⟩, .inl rfl, .inl rfl, ?_⟩
        by_cases ho : p.opOf s.opL = .read
        · exact .inr ⟨rfl, hok, if_pos ho, p, hm, hi, ho⟩
        · exact .inl (if_neg ho)
      all_goals
        rw [hr]
        exact .plain s.phase _ fun _ => rfl

/-- A device instruction that answers a next state found its write data written (R142). -/
theorem exec_device_cases (h : exec (name.instr a n) s = .next t) :
    ∃ w r, s.wdataOf name n w ∧ DeviceStep s name a n w r t := by
  obtain ⟨w, hw⟩ : ∃ w, s.wdataOf name n w := by
    by_cases hn : name = .pp4
    · subst hn
      cases hw : s.buf.readList 0 n.toNat with
      | some w => exact ⟨w, hw⟩
      | none =>
        rw [show exec (DevName.pp4.instr a n) s = _ from execPp4_unwritten hw] at h
        cases h
    · exact ⟨[], (if_neg hn).mpr rfl⟩
  obtain ⟨t', r, ht', hstep⟩ := exec_device (a := a) hw
  rw [ht'] at h
  cases h
  exact ⟨w, r, hw, hstep⟩

end Sys2Proof.Machine

/-! ## The statements of 40_transaction.md on single device instructions -/

namespace Sys2Proof.Proofs
open Sys2Proof Sys2Proof.Machine

/-- Settles O18. -/
theorem deviceInstructionIsOneTransaction : Obligations.DeviceInstructionIsOneTransaction := by
  intro s name a n w hw
  obtain ⟨t, r, hexec, hstep⟩ := exec_device (a := a) hw
  obtain ⟨q, rfl⟩ := hstep.record
  refine ⟨t, _, hexec, hstep.bt, transfer_desc .., transfer_wdata .., ?_, ?_⟩
  · obtain ⟨ho, hr⟩ | ⟨ho, hr⟩ | ⟨ho, hr⟩ :=
      (transfer s.par.tBusMs (s.rowDesc name a n) w q).result_cases <;> rw [hr, ho]
  · rw [transfer_desc]
    exact transfer_calls ..

/-- Settles O20. -/
theorem deviceInstructionFrame : Obligations.DeviceInstructionFrame := by
  intro s t i hop hread h
  obtain ⟨name, a, n, hdev⟩ := Instr.device_of_op_none hop
  obtain rfl := Instr.eq_device_instr hdev s.par.ins
  obtain ⟨w, r, -, hstep⟩ := exec_device_cases h
  have hbuf : t.buf = s.buf := hstep.buf.resolve_right fun ⟨hname, _⟩ => hread _ _ (by rw [hname]; rfl)
  have hsr (hi : name ≠ .rdsr) : t.sr = s.sr := hstep.sr.resolve_right fun ⟨hname, _⟩ => hi hname
  rw [hstep.frame]
  refine ⟨rfl, rfl, rfl, rfl, rfl, rfl, rfl, rfl, rfl, rfl, rfl, rfl, rfl, rfl, rfl, rfl, rfl, rfl, rfl, rfl, rfl,
    fun k => congrArg (Memory.read · k) hbuf, fun hi => hstep.ident ?_, fun hi => hsr ?_, fun hi => hstep.phase ?_⟩
  · rintro rfl
    exact hi rfl
  · rintro rfl
    exact hi rfl
  · cases name <;> simp [DevName.instr] at hi ⊢

/-- Settles O21. -/
theorem readFrame : Obligations.ReadFrame := by
  intro s t a n h
  obtain ⟨w, r, -, hstep⟩ := exec_device_cases (name := .read4) h
  obtain ⟨q, hr⟩ := hstep.record
  obtain ⟨hidv, hid⟩ := hstep.ident (by decide)
  have hsr : t.sr = s.sr := hstep.sr.resolve_right (by simp)
  have hphase := hstep.phase (by decide)
  have hlen (hok : r.outcome = .ok) : r.rdata.length = n.toNat := by
    subst hr
    rw [transfer_rdata_length, if_pos ⟨rfl, hok⟩]
    rfl
  rw [hstep.frame]
  refine ⟨rfl, rfl, rfl, rfl, rfl, rfl, rfl, rfl, hidv, hphase, rfl, rfl, hid, hsr, rfl, rfl, rfl, rfl, rfl, rfl, rfl,
    rfl, rfl, rfl, rfl, r, hstep.bt, ?_⟩
  obtain hbuf | ⟨-, hok, hbuf, hp⟩ := hstep.buf
  · exact ⟨fun k _ => congrArg (Memory.read · k) hbuf, fun k _ => .inl (congrArg (Memory.read · k) hbuf)⟩
  · refine ⟨fun k hk => ?_, fun k hk => .inr ⟨hok, ?_, hp⟩⟩
    · rw [hbuf, Memory.read_writeList, if_neg (by rw [hlen hok]; omega)]
    · rw [hbuf, Memory.read_writeList, if_pos (by rw [hlen hok]; omega), Nat.sub_zero]

end Sys2Proof.Proofs
end

section
/-! SUPPORT. Which fields a step can write: a host access, SELFTEST's own statements, the statements of a body, and the engine step as a whole. -/

namespace Sys2Proof.Machine

variable {s t : State} {p : Pos} {x : Op} {m : Stmt} {q : List Input}

/-! ## A host access (R130, R140) -/

/-- What holds of the state `t` after host access `a` in `s`, when the access starts no operation. -/
structure AccessStep (s : State) (a : HostAccess) (t : State) : Prop where
  frame : t = { s with
    addr := t.addr, len := t.len, tmo := t.tmo, tmoShort := t.tmoShort, cmdrej := t.cmdrej, buf := t.buf
    hostData := t.hostData }
  buf : t.buf = s.buf ∨ s.busy = false ∧ ∃ off w v i, a = .write off w v ∧ target s.par off w = .buf i ∧
    t.buf = s.buf.writeList i (unpackBytes w.bytes v)

theorem hostAccess_cases {a : HostAccess} (h : hostAccess a s = .next t) : AccessStep s a t := by
  cases a with
  | read off w =>
    simp only [hostAccess, hostRead] at h
    split at h
    case h_2 => split at h <;> cases h; exact ⟨rfl, .inl rfl⟩
    all_goals cases h <;> exact ⟨rfl, .inl rfl⟩
  | write off w v =>
    simp only [hostAccess, hostWrite] at h
    split at h
    case h_1 r _ => cases h; cases r <;> exact ⟨rfl, .inl rfl⟩
    case h_2 i ht =>
      cases h
      by_cases hb : s.busy = true
      · rw [State.writeBuf, if_pos hb]
        exact ⟨rfl, .inl rfl⟩
      · rw [State.writeBuf, if_neg hb]
        exact ⟨rfl, .inr ⟨Bool.eq_false_iff.mpr hb, off, w, v, i, rfl, ht, rfl⟩⟩
    case h_3 => cases h; exact ⟨rfl, .inl rfl⟩
    all_goals cases h

/-! ## A step without a transaction -/

/-- `t` differs from `s` in no latch, identity, status byte, BUF or record of BT. -/
def State.Quiet (s t : State) : Prop :=
  t = { s with
    phase := t.phase, stepNo := t.stepNo, err := t.err, busy := t.busy, done := t.done
    mmoff := t.mmoff, mmExp := t.mmExp, mmObs := t.mmObs, mstate := t.mstate, ev := t.ev, draws := t.draws }

/-- `t` is `s` after a statement of a body that is no transaction. -/
def State.Stepped (s t : State) : Prop :=
  t = { s with
    phase := t.phase, mmoff := t.mmoff, mmExp := t.mmExp, mmObs := t.mmObs, mstate := t.mstate, draws := t.draws }

theorem State.Stepped.quiet (h : s.Stepped t) : s.Quiet t := by
  rw [show t = _ from h]
  rfl

theorem State.compareWith_stepped (s : State) (p : Pos) (rd xs : List Byte) : s.Stepped (s.compareWith p rd xs) := by
  unfold State.compareWith
  split <;> rfl

theorem seqStep_quiet (a : Seq) (s : State) : s.Quiet (seqStep a s) := by
  cases a with
  | settle ts =>
    simp only [seqStep]
    split <;> rfl
  | _ => rfl

/-- A statement of a body is one transaction, or writes neither a latch, an identity, BUF nor BT (R20). -/
theorem body_step (h : bodyOf x m s = .next t) :
    (∃ name w r, (Pos.op m).issues x = some name ∧ s.wdataOf name s.args.n w ∧
      DeviceStep s name s.args.a s.args.n w r t) ∨ s.Stepped t := by
  cases body_cases h with
  | device name hi ht =>
    obtain ⟨w, r, hw, hstep⟩ := exec_device_cases ht
    exact .inl ⟨name, w, r, hi, hw, hstep⟩
  | check m' _ ht =>
    refine .inr ?_
    unfold checkStep at ht
    split at ht
    · split at ht <;> cases ht <;> rfl
    · cases ht
  | gap c _ ht =>
    refine .inr ?_
    unfold gapStep at ht
    split at ht <;> cases ht
    split <;> rfl
  | issue _ ht =>
    refine .inr ?_
    unfold issueStep at ht
    split at ht <;> cases ht
    rfl
  | compareErased rd _ ht =>
    refine .inr ?_
    unfold compareErased at ht
    split at ht <;> cases ht
    exact s.compareWith_stepped ..
  | compareData rd _ ht =>
    refine .inr ?_
    unfold compareData at ht
    split at ht
    · split at ht <;> cases ht
      exact s.compareWith_stepped ..
    · cases ht

/-! ## The engine step -/

/-- What holds of the state `t` after the engine step at `p` in `s`. Under `Inv` the first is no engine step: a running block is busy. -/
inductive EngineStep (s : State) (p : Pos) (t : State) : Prop
  | accept (hb : s.busy = false) (ht : t = s.accept s.opL)
  | device (name : DevName) (w : List Byte) (r : BusRecord) (hi : p.issues s.opL = some name)
      (h : DeviceStep s name s.args.a s.args.n w r t)
  | quiet (h : s.Quiet t)

theorem engine_step (hp : s.mstate = .run p) (h : exec s.opL.instr s = .next t) : EngineStep s p t := by
  cases engine_cases hp h with
  | accept hb ht => exact .accept hb ht
  | body x m hbody ht =>
    obtain ⟨name, w, r, hi, -, hstep⟩ | hq := body_step ht
    · exact .device name w r (hbody.issues.trans hi) hstep
    · exact .quiet hq.quiet
  | seq a _ _ ht => exact .quiet (ht ▸ seqStep_quiet a s)
  | finish e _ _ ht => exact .quiet (ht ▸ rfl)

/-- The latches, `op_l` and the parameters of `t` are those of `s` (R121). -/
def State.SameLatches (s t : State) : Prop :=
  t.opL = s.opL ∧ t.addrL = s.addrL ∧ t.lenL = s.lenL ∧ t.tmoL = s.tmoL ∧ t.tmosL = s.tmosL ∧ t.par = s.par

theorem State.Quiet.keeps (h : s.Quiet t) :
    t.buf = s.buf ∧ t.idBytes = s.idBytes ∧ t.idv = s.idv ∧ t.sr = s.sr ∧ t.bt = s.bt := by
  rw [show t = _ from h]
  exact ⟨rfl, rfl, rfl, rfl, rfl⟩

/-- Only the accept of a READ_ID clears IDV (R131). -/
theorem State.accept_idv (s : State) (o : Op) :
    (s.accept o).idv = s.idv ∨ (s.accept o).idv = false ∧ (s.accept o).opL = .readId := by
  by_cases ho : o = .readId
  · exact .inr ⟨if_pos ho, ho⟩
  · exact .inl (if_neg ho)

theorem State.Quiet.sameLatches (h : s.Quiet t) : s.SameLatches t := by
  rw [State.SameLatches, show t = _ from h]
  exact ⟨rfl, rfl, rfl, rfl, rfl, rfl⟩

theorem DeviceStep.sameLatches {name : DevName} {a n : Word} {w : List Byte} {r : BusRecord}
    (h : DeviceStep s name a n w r t) : s.SameLatches t := by
  rw [State.SameLatches, h.frame]
  exact ⟨rfl, rfl, rfl, rfl, rfl, rfl⟩

theorem AccessStep.sameLatches {a : HostAccess} (h : AccessStep s a t) : s.SameLatches t := by
  rw [State.SameLatches, h.frame]
  exact ⟨rfl, rfl, rfl, rfl, rfl, rfl⟩

end Sys2Proof.Machine

/-! ## The statements of 10_state.md on who writes what -/

namespace Sys2Proof.Proofs
open Sys2Proof Sys2Proof.Machine

/-- Settles O54. -/
theorem bufWriters : Obligations.BufWriters := by
  intro s s' h
  cases step_cases h with
  | blockReset q hq _ => exact .inr (.inr (.inr ⟨q, hq⟩))
  | accept a q v _ _ ht => exact .inl (ht ▸ rfl)
  | wait _ _ ht => exact .inl (ht ▸ rfl)
  | access a q hq _ ht =>
    obtain hbuf | ⟨hb, off, w, v, i, rfl, -⟩ := (hostAccess_cases ht).buf
    · exact .inl hbuf
    · exact .inr (.inl ⟨hb, off, w, v, q, hq⟩)
  | engine p hp ht =>
    have hrun := (State.engineAt_eq_some.mp hp).2
    cases engine_step (s := { s with inbox := s.inbox.tail }) hrun ht with
    | accept _ ht => exact .inl (ht ▸ rfl)
    | quiet hq => exact .inl hq.keeps.1
    | device name w r hi hstep =>
      obtain hbuf | ⟨-, hok, -, p', hp', hi', ho'⟩ := hstep.buf
      · exact .inl hbuf
      · obtain rfl : p = p' := MState.run.inj (hrun.symm.trans hp')
        exact .inr (.inr (.inl ⟨p, r, hp, hi', ho', hstep.bt, hok⟩))

/-- Settles O55. -/
theorem identityAndStatusWriters : Obligations.IdentityAndStatusWriters := by
  intro s s' h hrst
  cases step_cases h with
  | blockReset q hq _ => exact absurd hq (hrst q)
  | wait _ _ ht => exact ht ▸ ⟨.inl rfl, .inl rfl, .inl rfl⟩
  | access a q _ _ ht =>
    rw [(hostAccess_cases ht).frame]
    exact ⟨.inl rfl, .inl rfl, .inl rfl⟩
  | accept a q v _ hv ht =>
    subst ht
    refine ⟨.inl rfl, ?_, .inl rfl⟩
    exact (State.accept_idv _ _).imp_right fun ⟨hidv, ho⟩ => .inr ⟨hidv, State.cmdStart_busy hv, ho, rfl⟩
  | engine p hp ht =>
    have hrun := (State.engineAt_eq_some.mp hp).2
    cases engine_step (s := { s with inbox := s.inbox.tail }) hrun ht with
    | accept hb ht =>
      subst ht
      refine ⟨.inl rfl, ?_, .inl rfl⟩
      exact (State.accept_idv _ _).imp_right fun ⟨hidv, ho⟩ => .inr ⟨hidv, hb, ho, rfl⟩
    | quiet hq =>
      obtain ⟨-, hid, hidv, hsr, -⟩ := hq.keeps
      exact ⟨.inl hid, .inl hidv, .inl hsr⟩
    | device name w r hi hstep =>
      refine ⟨?_, ?_, hstep.sr.imp_right ?_⟩
      · by_cases hname : name = .rdid
        · exact hstep.idBytes.imp_right fun hok => ⟨p, r, hp, hname ▸ hi, hstep.bt, hok⟩
        · exact .inl (hstep.ident hname).2
      · by_cases hname : name = .rdid
        · exact .inr (.inl ⟨p, hp, hname ▸ hi⟩)
        · exact .inl (hstep.ident hname).1
      · rintro ⟨rfl, hok, hr⟩
        exact ⟨p, r, s'.sr, hp, hi, hstep.bt, hok, hr, rfl⟩

/-- Settles O56. -/
theorem latchesHoldWhileBusy : Obligations.LatchesHoldWhileBusy := by
  intro s s' hinv h hb hrst
  cases step_cases h with
  | blockReset q hq _ => exact absurd hq (hrst q)
  | wait _ _ ht => exact ht ▸ ⟨rfl, rfl, rfl, rfl, rfl, rfl⟩
  | access a q _ _ ht => exact (hostAccess_cases ht).sameLatches
  | accept a q v _ hv _ => exact absurd (hb.symm.trans (State.cmdStart_busy hv)) (by decide)
  | engine p hp ht =>
    have hrun := (State.engineAt_eq_some.mp hp).2
    cases engine_step (s := { s with inbox := s.inbox.tail }) hrun ht with
    | accept hb' _ => exact absurd (hb.symm.trans hb') (by decide)
    | quiet hq => exact hq.sameLatches
    | device name w r _ hstep => exact hstep.sameLatches

end Sys2Proof.Proofs
end

section
/-! SUPPORT. The statements of the bodies as state updates, by the statement; the invariant along them (R122, R120, R113, R523), and the steps that stop (R706). -/

namespace Sys2Proof.Machine

variable {s t : State} {p : Pos} {x : Op} {m : Stmt} {q : List Input}

/-! ## A statement of a body, by the statement (R20) -/

/-- The position after a transaction with result `r`. -/
def Pos.afterXact (p : Pos) (r : XactResult) (ok : List Byte → Pos) : MState := .run (r.elim ok p.leave)

/-- The engine step at statement `m` of the body of `x`, at position `p`: where it leads, and the `PHASE` it writes. -/
inductive BodyStep (s : State) (x : Op) (p : Pos) (t : State) : Stmt → Prop
  | rsten (hx : x = .reset) (r : BusRecord) (hm : t.mstate = p.afterXact r.result fun _ => p.goto .rst)
      (hf : t.phase = s.phase) : BodyStep s x p t .rsten
  | rst (hx : x = .reset) (r : BusRecord) (hr : t.bt = s.bt ++ [r])
      (hm : t.mstate = p.afterXact r.result fun _ => p.leave .ok)
      (hf : t.phase = r.result.elim (fun _ => .idle) fun _ => s.phase) : BodyStep s x p t .rst
  | rdid (hx : x = .readId) (r : BusRecord) (hm : t.mstate = p.afterXact r.result fun _ => p.leave .ok)
      (hf : t.phase = s.phase) : BodyStep s x p t .rdid
  | wren (hx : x.Handshakes) (r : BusRecord) (hr : t.bt = s.bt ++ [r])
      (hm : t.mstate = p.afterXact r.result fun _ => p.goto (.poll none))
      (hf : t.phase = r.result.elim (fun _ => .wePending) fun _ => .idle) : BodyStep s x p t .wren
  | poll (hx : x = .waitBusy ∨ x.Handshakes) (c : Option PollTimes)
      (ht : PollCase (s.pollEntry c) p (s.loopEntry c) t) : BodyStep s x p t (.poll c)
  | gap (hx : x = .waitBusy ∨ x.Handshakes) (c : PollTimes)
      (hm : t.mstate = .run p ∨ t.mstate = .run (p.goto (.poll (some c)))) (hf : t.phase = s.phase) :
      BodyStep s x p t (.gap c)
  | issue (hx : x.Mutates) (hm : t.mstate = .run (p.goto .command)) (hf : t.phase = .cmdIssued) :
      BodyStep s x p t .issue
  | command (hx : x.Mutates) (r : BusRecord) (hr : t.bt = s.bt ++ [r])
      (hm : t.mstate = p.afterXact r.result fun _ => p.leave .ok)
      (hf : t.phase = r.result.elim (fun _ => .deviceBusy) fun _ => .idle) : BodyStep s x p t .command
  | check (hx : x.Checks) (hm : t.mstate = .run (if argsOk x s.par (s.argsAt p).a (s.argsAt p).n = true
      then p.goto (afterCheck x) else p.leave .invalidArgument)) (hf : t.phase = s.phase) : BodyStep s x p t .check
  | read (hx : x = .read) (r : BusRecord) (hm : t.mstate = p.afterXact r.result fun _ => p.leave .ok)
      (hf : t.phase = s.phase) : BodyStep s x p t .read4
  | readSpan (hx : x.Verifies) (r : BusRecord) (hr : r = s.record (s.desc .read4 (s.argsAt p).a (s.argsAt p).n) [])
      (hm : t.mstate = p.afterXact r.result fun b => p.goto (.compare b)) (hf : t.phase = s.phase) :
      BodyStep s x p t .read4
  | compare (hx : x.Verifies) (rd : List Byte)
      (hm : t.mstate = .run (p.leave .ok) ∨ t.mstate = .run (p.leave .verifyMismatch)) (hf : t.phase = s.phase) :
      BodyStep s x p t (.compare rd)

theorem State.compareWith_cases (s : State) (p : Pos) (rd xs : List Byte) :
    (s.compareWith p rd xs).phase = s.phase ∧ ((s.compareWith p rd xs).mstate = .run (p.leave .ok) ∨
      (s.compareWith p rd xs).mstate = .run (p.leave .verifyMismatch)) := by
  unfold State.compareWith
  split
  · exact ⟨rfl, .inr rfl⟩
  · exact ⟨rfl, .inl rfl⟩

theorem BodyStep.commandDone (hx : x.Mutates) (d : Desc) (w : List Byte) :
    BodyStep s x p ((s.xact d w).commandDone p (s.record d w).result) .command := by
  rw [State.commandDone_eq]
  exact .command hx _ rfl rfl rfl

theorem exec_bodyStep (h : s.inBody x m p) (hm : bodyStmt x m = true) (ht : exec s.opL.instr s = .next t) :
    BodyStep s x p t m := by
  cases bodyAt_of_bodyStmt hm with
  | rsten hx =>
    cases ((exec_inBody_issues h hm rfl).trans (execRsten_awaited (h.awaits rfl))).symm.trans ht
    exact .rsten hx _ rfl rfl
  | rst hx =>
    cases ((exec_inBody_issues h hm rfl).trans (execRst_awaited (h.awaits rfl))).symm.trans ht
    exact .rst hx _ rfl rfl rfl
  | rdid hx =>
    cases ((exec_inBody_issues h hm rfl).trans (execRdid_awaited (h.awaits rfl))).symm.trans ht
    exact .rdid hx _ rfl rfl
  | wren hx =>
    cases ((exec_inBody_issues h hm rfl).trans (execWren_awaited (h.awaits rfl))).symm.trans ht
    exact .wren hx _ rfl rfl rfl
  | poll hx c =>
    rw [exec_poll hx h] at ht
    cases ht
    exact .poll hx c (pollFrom_cases ..)
  | gap hx c =>
    have hbody : bodyOf x (.gap c) s = gapStep c s := by obtain rfl | rfl | rfl | rfl | rfl := hx <;> rfl
    rw [exec_inBody h (by simp), hbody, gapStep_run h.mstate] at ht
    cases ht
    refine .gap hx c ?_ rfl
    split
    · exact .inr rfl
    · exact .inl rfl
  | issue hx =>
    rw [(Proofs.mutatingCommand s p x hx).1 h] at ht
    cases ht
    exact .issue hx rfl rfl
  | command hx =>
    obtain rfl | rfl | rfl := hx
    · cases ((exec_inBody_issues h hm rfl).trans (execEn4bBus_awaited (h.awaits rfl))).symm.trans ht
      exact .commandDone (.inl rfl) ..
    · cases ((exec_inBody_issues h hm rfl).trans (execSe4_awaited (h.awaits rfl))).symm.trans ht
      exact .commandDone (.inr (.inl rfl)) ..
    · have hexec := exec_inBody_issues h hm (name := .pp4) rfl
      cases hw : s.buf.readList 0 (s.argsAt p).n.toNat with
      | none => cases (hexec.trans (execPp4_unwritten hw)).symm.trans ht
      | some w =>
        cases (hexec.trans (execPp4_awaited (h.awaits rfl) hw)).symm.trans ht
        exact .commandDone (.inr (.inr rfl)) ..
  | check hx =>
    rw [exec_check hx h] at ht
    cases ht
    exact .check hx rfl rfl
  | read4 hx =>
    obtain rfl | hx := hx
    · rw [exec_read4_read h] at ht
      cases ht
      exact .read rfl _ rfl rfl
    · rw [exec_read4_verifies hx h] at ht
      cases ht
      exact .readSpan hx _ rfl rfl rfl
  | compare hx rd =>
    obtain rfl | rfl := hx
    · rw [exec_compareErased h] at ht
      cases ht
      obtain ⟨hf, hm⟩ := s.compareWith_cases p rd (List.replicate (s.argsAt p).n.toNat s.par.erasedByte)
      exact .compare (.inl rfl) rd hm hf
    · cases hxs : s.buf.readList 0 (s.argsAt p).n.toNat with
      | none =>
        rw [exec_compareData_unwritten h hxs] at ht
        cases ht
      | some xs =>
        rw [exec_compareData h hxs] at ht
        cases ht
        obtain ⟨hf, hm⟩ := s.compareWith_cases p rd xs
        exact .compare (.inr rfl) rd hm hf

/-! ## The invariant of a running operation, position by position (R113, R120, R122, R523) -/

theorem State.SameLatches.argsAt (h : s.SameLatches t) (p : Pos) : t.argsAt p = s.argsAt p := by
  obtain ⟨-, ha, hl, ht, hts, hpar⟩ := h
  cases p with
  | op m => simp only [State.argsAt, ha, hl, ht]
  | seq q => simp only [State.argsAt, ha, hl, ht]
  | sub k m => cases k <;> simp only [State.argsAt, Sub.len, Sub.tmo, ha, hl, ht, hts, hpar]

theorem mayRaise_bus {e : Err} (hm : bodyStmt x m = true) (he : e = .busError ∨ e = .busTimeout) :
    mayRaise x e = true := by
  obtain rfl | rfl := he <;> cases x <;> first | rfl | cases hm

theorem mayRaise_ok (hm : bodyStmt x m = true) : mayRaise x .ok = true := by
  cases x <;> first | rfl | cases hm

theorem Pos.afterXact_cases (p : Pos) (r : BusRecord) (ok : List Byte → Pos) :
    (r.outcome = .ok ∧ r.result = .ok r.rdata ∧ p.afterXact r.result ok = .run (ok r.rdata)) ∨
      ∃ e, (e = .busError ∨ e = .busTimeout) ∧ r.outcome ≠ .ok ∧ r.result = .err e ∧
        p.afterXact r.result ok = .run (p.leave e) := by
  obtain ⟨ho, hr⟩ | ⟨ho, hr⟩ | ⟨ho, hr⟩ := r.result_cases
  · exact .inl ⟨ho, hr, by rw [hr]; rfl⟩
  · exact .inr ⟨_, .inl rfl, by simp [ho], hr, by rw [hr]; rfl⟩
  · exact .inr ⟨_, .inr rfl, by simp [ho], hr, by rw [hr]; rfl⟩

/-! ### Where a body leads when it ends -/

theorem Sub.after_legal (k : Sub) (e : Err) : (k.after e).legal .selftest = true := by
  cases e <;> cases k <;> rfl

theorem Sub.after_phaseAt (k : Sub) (e : Err) : phaseAt .selftest (k.after e) = none := by
  cases e <;> cases k <;> rfl

theorem Sub.after_stepAt (k : Sub) (e : Err) : stepAt (k.after e) = some k.step.number := by
  cases e <;> cases k <;> rfl

/-- A sub-operation's end leads into no other body but WAIT_BUSY's (R610). -/
theorem Sub.after_eq_sub {k k' : Sub} {e : Err} (h : k.after e = .sub k' m) : m = .poll none ∧ k'.op = .waitBusy := by
  cases e <;> cases k <;> cases h <;> exact ⟨rfl, rfl⟩

theorem RunInv.leave {e : Err} (hi : RunInv s p) (h : s.inBody x m p) (hm : bodyStmt x m = true)
    (he : mayRaise x e = true) (hs : s.SameLatches t) (hn : t.stepNo = s.stepNo) : RunInv t (p.leave e) := by
  have hle : t.stepNo ≤ 9 := hn ▸ hi.stepLe
  obtain ⟨-, -, ⟨rfl, rfl⟩ | ⟨k, rfl, rfl, ho⟩⟩ := h
  · have hself : s.opL ≠ .selftest := fun ho => by rw [ho] at hm; cases hm
    refine ⟨?_, by rintro f ⟨⟩, ?_, hle, ?_, ?_⟩
    · simp [Pos.leave, Pos.legal, hs.1, hself, he]
    · rintro n ⟨⟩
      exact hn.trans (hi.stepNo 0 rfl)
    · rintro m' (h | ⟨k, h⟩) hc <;> cases h
      cases hc
    · rintro rd (h | ⟨k, h⟩) <;> cases h
  · have ho' : t.opL = .selftest := hs.1.trans ho
    rw [Pos.leave]
    refine ⟨?_, ?_, ?_, hle, ?_, ?_⟩
    · rw [ho', k.after_legal]
    · rw [ho', k.after_phaseAt]
      rintro f ⟨⟩
    · rw [k.after_stepAt]
      rintro n ⟨⟩
      exact hn.trans (hi.stepNo _ rfl)
    · rintro m' (h | ⟨k', h⟩) -
      · cases e <;> cases k <;> cases h
      · rw [h, Pos.opOf, (Sub.after_eq_sub h).2]
        rfl
    · rintro rd (h | ⟨k', h⟩)
      · cases e <;> cases k <;> cases h
      · cases (Sub.after_eq_sub h).1

/-! ### Another statement of the same body -/

theorem State.inBody.goto_legal {m' : Stmt} (h : s.inBody x m p) (hm : bodyStmt x m' = true) :
    (p.goto m').legal s.opL = true := by
  obtain ⟨-, -, ⟨rfl, rfl⟩ | ⟨k, rfl, rfl, ho⟩⟩ := h
  · cases m' with
    | finish e => exact absurd rfl (bodyStmt_ne_finish hm e)
    | _ => exact hm
  · simp [Pos.goto, Pos.legal, ho, hm]

theorem RunInv.argsOk (hi : RunInv s p) (h : s.inBody x m p) (hc : m.checked = true) :
    argsOk x s.par (s.argsAt p).a (s.argsAt p).n = true := by
  rw [← h.opOf]
  obtain ⟨-, -, ⟨rfl, -⟩ | ⟨k, rfl, -⟩⟩ := h
  · exact hi.args m (.inl rfl) hc
  · exact hi.args m (.inr ⟨k, rfl⟩) hc

theorem RunInv.goto {m' : Stmt} (hi : RunInv s p) (h : s.inBody x m p) (hm : bodyStmt x m' = true)
    (hargs : Machine.argsOk x s.par (s.argsAt p).a (s.argsAt p).n = true)
    (hphase : ∀ f, phaseAt x (.op m') = some f → t.phase = f)
    (hspan : ∀ rd, m' = .compare rd → rd.length = (s.argsAt p).n.toNat)
    (hs : s.SameLatches t) (hn : t.stepNo = s.stepNo) : RunInv t (p.goto m') := by
  have hlegal := h.goto_legal hm
  have hop := h.opOf
  have hle : t.stepNo ≤ 9 := hn ▸ hi.stepLe
  obtain ⟨ho, -, -, -, -, hpar⟩ := id hs
  obtain ⟨-, -, ⟨rfl, rfl⟩ | ⟨k, rfl, rfl, ho'⟩⟩ := h
  · refine ⟨ho ▸ hlegal, ho ▸ hphase, ?_, hle, ?_, ?_⟩
    · exact fun n h => hn.trans (hi.stepNo n h)
    · rintro m'' - -
      rw [hs.argsAt, ho, hpar]
      exact hargs
    · rw [hs.argsAt]
      rintro rd (h | ⟨k, h⟩) <;> cases h
      exact hspan rd rfl
  · refine ⟨ho ▸ hlegal, fun f hf => hphase f ?_, ?_, hle, ?_, ?_⟩
    · rw [← hf]
      rfl
    · exact fun n h => hn.trans (hi.stepNo n h)
    · rintro m'' - -
      rw [hs.argsAt, hpar]
      exact hargs
    · rw [hs.argsAt]
      rintro rd (h | ⟨k, h⟩) <;> cases h
      exact hspan rd rfl

/-! ### Where the engine stands after a statement -/

theorem RunInv.congr (hi : RunInv s p) (hs : s.SameLatches t) (hn : t.stepNo = s.stepNo) (hf : t.phase = s.phase) :
    RunInv t p := by
  obtain ⟨ho, -, -, -, -, hpar⟩ := id hs
  refine ⟨ho ▸ hi.legal, ?_, ?_, hn ▸ hi.stepLe, ?_, ?_⟩
  · rw [ho, hf]
    exact hi.phase
  · rw [hn]
    exact hi.stepNo
  · rw [hs.argsAt, ho, hpar]
    exact hi.args
  · rw [hs.argsAt]
    exact hi.span

theorem phaseAt_inBody (hi : RunInv s p) (h : s.inBody x m p) {f : Phase} (hf : phaseAt x (.op m) = some f) :
    s.phase = f := by
  refine hi.phase f ?_
  rw [← hf]
  obtain ⟨-, -, ⟨rfl, rfl⟩ | ⟨k, rfl, rfl, ho⟩⟩ := h <;> rfl

theorem bodyStmt_poll (hx : x = .waitBusy ∨ x.Handshakes) (c : Option PollTimes) : bodyStmt x (.poll c) = true := by
  obtain rfl | rfl | rfl | rfl | rfl := hx <;> rfl

theorem bodyStmt_gap (hx : x = .waitBusy ∨ x.Handshakes) (c : PollTimes) : bodyStmt x (.gap c) = true := by
  obtain rfl | rfl | rfl | rfl | rfl := hx <;> rfl

/-- After its handshake an operation other than WRITE_ENABLE goes on to its command (R526). -/
theorem Op.Handshakes.mutates (hx : x = .waitBusy ∨ x.Handshakes) (h : ¬ (x = .waitBusy ∨ x = .writeEnable)) :
    x.Mutates := by
  obtain rfl | rfl | hx := hx
  · exact absurd (.inl rfl) h
  · exact absurd (.inr rfl) h
  · exact hx

theorem phaseAt_handshake {f : Phase} {c : Option PollTimes} (h : phaseAt x (.op (.poll c)) = some f) :
    f = .wePending := by
  cases x <;> cases h <;> rfl

theorem BodyStep.runInv (hi : RunInv s p) (h : s.inBody x m p) (hm : bodyStmt x m = true)
    (hb : BodyStep s x p t m) (hs : s.SameLatches t) (hn : t.stepNo = s.stepNo) :
    ∃ p', t.mstate = .run p' ∧ RunInv t p' := by
  have leave {e : Err} (he : mayRaise x e = true) (hmst : t.mstate = .run (p.leave e)) :
      ∃ p', t.mstate = .run p' ∧ RunInv t p' := ⟨_, hmst, hi.leave h hm he hs hn⟩
  have goto {m' : Stmt} (hm' : bodyStmt x m' = true) (hc : m.checked = true)
      (hphase : ∀ f, phaseAt x (.op m') = some f → t.phase = f)
      (hspan : ∀ rd, m' = .compare rd → rd.length = (s.argsAt p).n.toNat) (hmst : t.mstate = .run (p.goto m')) :
      ∃ p', t.mstate = .run p' ∧ RunInv t p' := ⟨_, hmst, hi.goto h hm' (hi.argsOk h hc) hphase hspan hs hn⟩
  have xact {ok : List Byte → Pos} (r : BusRecord) (hmst : t.mstate = p.afterXact r.result ok)
      (hok : r.result = .ok r.rdata → t.mstate = .run (ok r.rdata) → ∃ p', t.mstate = .run p' ∧ RunInv t p') :
      ∃ p', t.mstate = .run p' ∧ RunInv t p' := by
    obtain ⟨-, hr, hres⟩ | ⟨e, he, -, -, hres⟩ := p.afterXact_cases r ok
    · exact hok hr (hmst.trans hres)
    · exact leave (mayRaise_bus hm he) (hmst.trans hres)
  cases hb with
  | rsten hx r hmst _ =>
    refine xact r hmst fun _ hmst => goto ?_ rfl (by rintro f ⟨⟩) (by rintro rd ⟨⟩) hmst
    subst hx
    rfl
  | rst hx r _ hmst _ => exact xact r hmst fun _ => leave (mayRaise_ok hm)
  | rdid hx r hmst _ => exact xact r hmst fun _ => leave (mayRaise_ok hm)
  | wren hx r _ hmst hf =>
    refine xact r hmst fun hr => goto (bodyStmt_poll (.inr hx) none) rfl (fun f h => ?_) (by rintro rd ⟨⟩)
    rw [phaseAt_handshake h, hf, hr]
    rfl
  | poll hx c ht =>
    have hop : p.opOf (s.pollEntry c).opL = x := h.opOf
    cases ht with
    | failed e hr ht => exact leave (mayRaise_bus hm ((BusRecord.result_err hr).imp And.right And.right)) (ht ▸ rfl)
    | done b _ _ ht =>
      rw [hop] at ht
      by_cases hx' : x = .waitBusy ∨ x = .writeEnable
      · exact leave (mayRaise_ok hm) (ht ▸ congrArg MState.run (if_pos hx'))
      · have hissue : bodyStmt x .issue = true := by
          obtain rfl | rfl | rfl := Op.Handshakes.mutates hx hx' <;> rfl
        refine goto hissue rfl ?_ (by rintro rd ⟨⟩) (ht ▸ congrArg MState.run (if_neg hx'))
        rintro f ⟨⟩
        exact ht ▸ if_neg fun h => hx' (.inl h)
    | expired b _ _ _ ht =>
      have hmst : t.mstate = .run (p.leave .timeout) := ht ▸ rfl
      refine leave ?_ hmst
      obtain rfl | rfl | rfl | rfl | rfl := hx <;> rfl
    | again b c' _ _ _ _ ht =>
      have hf : t.phase = s.phase := ht ▸ rfl
      have hphase (f : Phase) (hc : phaseAt x (.op (.poll c)) = some f) : t.phase = f :=
        hf.trans (phaseAt_inBody hi h hc)
      by_cases hgap : (s.pollEntry c).par.pollGapMs = 0
      · exact goto (bodyStmt_poll hx (some c')) rfl hphase (by rintro rd ⟨⟩) (ht ▸ congrArg MState.run (if_pos hgap))
      · exact goto (bodyStmt_gap hx c') rfl hphase (by rintro rd ⟨⟩) (ht ▸ congrArg MState.run (if_neg hgap))
  | gap hx c hmst hf =>
    obtain hmst | hmst := hmst
    · exact ⟨p, hmst, hi.congr hs hn hf⟩
    · exact goto (bodyStmt_poll hx (some c)) rfl (fun f hc => hf.trans (phaseAt_inBody hi h hc)) (by rintro rd ⟨⟩) hmst
  | issue hx hmst hf =>
    refine goto ?_ rfl ?_ (by rintro rd ⟨⟩) hmst
    · obtain rfl | rfl | rfl := hx <;> rfl
    · rintro f ⟨⟩
      exact hf
  | command hx r _ hmst _ => exact xact r hmst fun _ => leave (mayRaise_ok hm)
  | check hx hmst _ =>
    by_cases hok : argsOk x s.par (s.argsAt p).a (s.argsAt p).n = true
    · rw [if_pos hok] at hmst
      have hcheck : bodyStmt x (afterCheck x) = true ∧ phaseAt x (.op (afterCheck x)) = none ∧
          ∀ rd, afterCheck x ≠ .compare rd := by
        obtain rfl | rfl | rfl | rfl | rfl := hx <;> exact ⟨rfl, rfl, by rintro rd ⟨⟩⟩
      obtain ⟨hm', hphase, hspan⟩ := hcheck
      exact ⟨_, hmst, hi.goto h hm' hok (by simp [hphase]) (fun rd hrd => absurd hrd (hspan rd)) hs hn⟩
    · rw [if_neg hok] at hmst
      refine leave ?_ hmst
      obtain rfl | rfl | rfl | rfl | rfl := hx <;> rfl
  | read hx r hmst _ => exact xact r hmst fun _ => leave (mayRaise_ok hm)
  | readSpan hx r hr hmst _ =>
    refine xact r hmst fun hres => goto ?_ rfl (by rintro f ⟨⟩) ?_
    · obtain rfl | rfl := hx <;> rfl
    · rintro rd ⟨⟩
      subst hr
      exact transfer_result_length rfl hres
  | compare hx rd hmst hf =>
    obtain hmst | hmst := hmst
    · exact leave (mayRaise_ok hm) hmst
    · refine leave ?_ hmst
      obtain rfl | rfl := hx <;> rfl

/-! ## The invariant (R14, R106, R107, R112, R140, R703) -/

/-- `BUSY`, `DONE`, `ERR` and `STEP` of `t` are those of `s`. -/
def State.SameControl (s t : State) : Prop :=
  t.busy = s.busy ∧ t.done = s.done ∧ t.err = s.err ∧ t.stepNo = s.stepNo

theorem AccessStep.sameControl {a : HostAccess} (h : AccessStep s a t) : s.SameControl t := by
  rw [State.SameControl, h.frame]
  exact ⟨rfl, rfl, rfl, rfl⟩

theorem State.Stepped.sameControl (h : s.Stepped t) : s.SameControl t := by
  rw [State.SameControl, show t = _ from h]
  exact ⟨rfl, rfl, rfl, rfl⟩

theorem DeviceStep.sameControl {name : DevName} {a n : Word} {w : List Byte} {r : BusRecord}
    (h : DeviceStep s name a n w r t) : s.SameControl t := by
  rw [State.SameControl, h.frame]
  exact ⟨rfl, rfl, rfl, rfl⟩

/-- BUF is canonical and within `BUF_SIZE`. -/
def Memory.Ok (m : Memory) (size : Nat) : Prop := m.wf = true ∧ ∀ c ∈ m, c.1 < size

theorem Memory.Ok.writeList {b : Memory} {size i : Nat} {bs : List Byte} (h : b.Ok size)
    (hb : i + bs.length ≤ size) : (b.writeList i bs).Ok size := by
  refine ⟨Memory.wf_writeList h.1, fun c hc => ?_⟩
  obtain ⟨-, hlt⟩ | hc := Memory.mem_writeList hc
  · omega
  · exact h.2 c hc

theorem inv_blockReset (hpar : s.par.wf = true) (htrace : ∀ r ∈ s.bt, RecordOk s.par r) : Inv s.blockReset where
  par := hpar
  busyRun := by simp [State.blockReset, State.reset]
  exclusive := by simp [State.blockReset, State.reset]
  errOk := fun _ => rfl
  raised := by simp [State.blockReset, State.reset]
  bufWf := rfl
  bufRange := by simp [State.blockReset, State.reset]
  stepIdle := fun _ => ⟨(by decide : (0 : BitVec 4) ≤ 9), fun _ => rfl⟩
  run := by simp [State.blockReset, State.reset]
  trace := htrace

/-- A step that leaves the engine and BT alone, and keeps BUF canonical, keeps the invariant. -/
theorem Inv.congr (hi : Inv s) (hs : s.SameLatches t) (hc : s.SameControl t) (hf : t.phase = s.phase)
    (hm : t.mstate = s.mstate) (ht : t.bt = s.bt) (hbuf : t.buf.Ok s.par.bufSize) : Inv t := by
  obtain ⟨hb, hd, he, hn⟩ := hc
  obtain ⟨ho, -, -, -, -, hpar⟩ := id hs
  constructor
  · exact hpar ▸ hi.par
  · rw [hb, hm]
    exact hi.busyRun
  · rw [hb, hd]
    exact hi.exclusive
  · rw [hd, he]
    exact hi.errOk
  · rw [hd, ho, he]
    exact hi.raised
  · exact hbuf.1
  · exact hpar ▸ hbuf.2
  · rw [hm, hn, ho]
    exact hi.stepIdle
  · intro p hp
    exact (hi.run p (hm ▸ hp)).congr hs hn hf
  · rw [ht, hpar]
    exact hi.trace

theorem Inv.bufOk (hi : Inv s) : s.buf.Ok s.par.bufSize := ⟨hi.bufWf, hi.bufRange⟩

theorem Inv.withInbox (hi : Inv s) (q : List Input) : Inv { s with inbox := q } :=
  hi.congr ⟨rfl, rfl, rfl, rfl, rfl, rfl⟩ ⟨rfl, rfl, rfl, rfl⟩ rfl rfl rfl hi.bufOk

theorem State.Stepped.sameLatches (h : s.Stepped t) : s.SameLatches t := h.quiet.sameLatches

theorem Inv.access {a : HostAccess} (hi : Inv s) (h : AccessStep s a t) : Inv t := by
  have hbuf : t.buf.Ok s.par.bufSize := by
    obtain hbuf | ⟨-, off, w, v, i, -, ht, hbuf⟩ := h.buf <;> rw [hbuf]
    · exact hi.bufOk
    · exact hi.bufOk.writeList (by rw [unpackBytes_length]; exact (target_eq_buf ht).2)
  exact hi.congr h.sameLatches h.sameControl (by rw [h.frame]) (by rw [h.frame]) (by rw [h.frame]) hbuf

/-- The state an accept leaves meets the invariant: the operation is at its first statement (R131). -/
theorem Inv.accept (hi : Inv s) (o : Op) : Inv (s.accept o) where
  par := hi.par
  busyRun := by simp [State.accept]
  exclusive := by simp [State.accept]
  errOk := fun _ => rfl
  raised := by simp [State.accept]
  bufWf := hi.bufWf
  bufRange := hi.bufRange
  stepIdle := by simp [State.accept]
  trace := hi.trace
  run := by
    rintro p ⟨⟩
    refine ⟨?_, ?_, ?_, (by decide : (0 : BitVec 4) ≤ 9), ?_, ?_⟩
    · cases o <;> rfl
    · cases o <;> rintro f ⟨⟩
    · cases o <;> rintro n ⟨⟩ <;> rfl
    · rintro m (h | ⟨k, h⟩) hc
      · cases o <;> cases h <;> cases hc <;> rfl
      · cases o <;> cases h
    · rintro rd (h | ⟨k, h⟩) <;> cases o <;> cases h

/-- A running step keeps the invariant when it keeps the engine running and its position meets `RunInv`. -/
theorem Inv.running {p' : Pos} (hi : Inv s) (hp : s.mstate = .run p) (hs : s.SameLatches t)
    (hc : t.busy = s.busy ∧ t.done = s.done ∧ t.err = s.err) (hbuf : t.buf.Ok s.par.bufSize)
    (htrace : ∀ r ∈ t.bt, RecordOk s.par r) (hm : t.mstate = .run p')
    (hr : RunInv t p') : Inv t := by
  obtain ⟨hb, hd, he⟩ := hc
  obtain ⟨ho, -, -, -, -, hpar⟩ := id hs
  have hbusy : s.busy = true := hi.busyRun.mpr (by simp [hp])
  constructor
  · exact hpar ▸ hi.par
  · simp [hb, hm, hbusy]
  · rw [hb, hd]
    exact hi.exclusive
  · rw [hd, he]
    exact hi.errOk
  · rw [hd, ho, he]
    exact hi.raised
  · exact hbuf.1
  · exact hpar ▸ hbuf.2
  · simp [hm]
  · intro p hp
    obtain rfl : p' = p := MState.run.inj (hm.symm.trans hp)
    exact hr
  · rw [hpar]
    exact htrace

theorem issues_read4 (hm : bodyStmt x m = true) (h : (Pos.op m).issues x = some .read4) :
    m = .read4 ∧ (x = .read ∨ x.Verifies) := by
  cases m <;> cases x <;> cases hm <;> cases h <;> simp [Op.Verifies]

theorem issues_pp4 (hm : bodyStmt x m = true) (h : (Pos.op m).issues x = some .pp4) :
    m = .command ∧ x = .program := by
  cases m <;> cases x <;> cases hm <;> cases h
  exact ⟨rfl, rfl⟩

/-- A row with a length operand is sent only after the length was checked (R210, R212, R523). -/
theorem RunInv.length_ne_zero {name : DevName} (hi : RunInv s p) (h : s.inBody x m p) (hm : bodyStmt x m = true)
    (hn : (Pos.op m).issues x = some name) (hname : name = .read4 ∨ name = .pp4) : (s.argsAt p).n.toNat ≠ 0 := by
  obtain rfl | rfl := hname
  · obtain ⟨rfl, hx⟩ := issues_read4 hm hn
    have hargs := hi.argsOk h rfl
    obtain rfl | rfl | rfl := hx
    · exact ((readArgs_iff s.par).mp hargs).1
    · exact (readRange_iff.mp hargs).1
    · exact ((readArgs_iff s.par).mp hargs).1
  · obtain ⟨rfl, rfl⟩ := issues_pp4 hm hn
    exact ((programRange_iff s.par).mp (hi.argsOk h rfl)).1

theorem State.wdataOf.length {name : DevName} {n : Word} {w : List Byte} (h : s.wdataOf name n w) :
    w.length = if name = .pp4 then n.toNat else 0 := by
  by_cases hname : name = .pp4
  · rw [State.wdataOf, if_pos hname] at h
    rw [if_pos hname, (Memory.readList_eq_some.mp h).1]
  · rw [State.wdataOf, if_neg hname] at h
    rw [if_neg hname, h, List.length_nil]

/-- The record of a transaction that a legal position issues is well formed (R308, R410). -/
theorem RunInv.recordOk {name : DevName} {w : List Byte} {r : BusRecord} (hi : RunInv s p) (h : s.inBody x m p)
    (hm : bodyStmt x m = true) (hn : (Pos.op m).issues x = some name) (hw : s.wdataOf name s.args.n w)
    (hr : DeviceStep s name s.args.a s.args.n w r t) : RecordOk s.par r := by
  obtain ⟨q, rfl⟩ := hr.record
  refine recordOk_transfer _ _ _ _ _ _ _ (fun hname => ?_) ?_
  · have hlen := hi.length_ne_zero h hm hn hname
    rw [if_pos hname.symm, h.args]
    exact fun h0 => hlen (congrArg BitVec.toNat h0)
  · rw [hw.length]
    split <;> simp [*]

/-- READ's bytes fit BUF (R555, R523). -/
theorem RunInv.bufOk {name : DevName} {w : List Byte} {r : BusRecord} (hi : RunInv s p) (h : s.inBody x m p)
    (hm : bodyStmt x m = true) (hn : (Pos.op m).issues x = some name)
    (hr : DeviceStep s name s.args.a s.args.n w r t) (hbuf : s.buf.Ok s.par.bufSize) : t.buf.Ok s.par.bufSize := by
  obtain hb | ⟨rfl, hok, hb, p', hp', -, hread⟩ := hr.buf <;> rw [hb]
  · exact hbuf
  · obtain ⟨q, rfl⟩ := hr.record
    obtain rfl : p = p' := MState.run.inj (h.mstate.symm.trans hp')
    obtain rfl : x = .read := h.opOf.symm.trans hread
    obtain ⟨rfl, -⟩ := issues_read4 hm hn
    refine hbuf.writeList ?_
    rw [transfer_rdata_length, if_pos ⟨rfl, hok⟩, Nat.zero_add]
    exact h.args ▸ ((readArgs_iff s.par).mp (hi.argsOk h rfl)).2.1

theorem Inv.body (hi : Inv s) (h : s.inBody x m p) (hm : bodyStmt x m = true)
    (ht : exec s.opL.instr s = .next t) : Inv t := by
  have hrun := hi.run p h.mstate
  have hnext := exec_bodyStep h hm ht
  rw [exec_inBody h (bodyStmt_ne_finish hm)] at ht
  obtain ⟨name, w, r, hn, hw, hstep⟩ | hstep := body_step ht
  all_goals
    obtain ⟨hb, hd, he, hno⟩ := hstep.sameControl
    obtain ⟨p', hmst, hrun'⟩ := hnext.runInv hrun h hm hstep.sameLatches hno
  · refine hi.running h.mstate hstep.sameLatches ⟨hb, hd, he⟩ (hrun.bufOk h hm hn hstep hi.bufOk) ?_ hmst hrun'
    rw [hstep.bt]
    intro r' hr'
    obtain hr' | hr' := List.mem_append.mp hr'
    · exact hi.trace r' hr'
    · exact List.mem_singleton.mp hr' ▸ hrun.recordOk h hm hn hw hstep
  · obtain ⟨hbuf, -, -, -, hbt⟩ := hstep.quiet.keeps
    exact hi.running h.mstate hstep.sameLatches ⟨hb, hd, he⟩ (hbuf ▸ hi.bufOk) (hbt ▸ hi.trace) hmst hrun'

theorem TestStep.number_le (n : TestStep) : n.number ≤ 9 := by cases n <;> decide

theorem TestStep.succ_number {n n' : TestStep} (h : n.succ = some n') : n'.number - 1 = n.number := by
  cases n <;> cases h <;> rfl

theorem TestStep.first_legal (n : TestStep) : n.first.legal .selftest = true := by cases n <;> rfl

theorem TestStep.first_phaseAt (n : TestStep) : phaseAt .selftest n.first = none := by cases n <;> rfl

theorem TestStep.first_stepAt (n : TestStep) : stepAt n.first = some n.number := by cases n <;> rfl

/-- A sub-operation begins with its argument checks, or has none (R523, R610). -/
theorem TestStep.first_args {n : TestStep} {k : Sub} (h : n.first = .sub k m) (hc : m.checked = true) (par : Params)
    (a l : Word) : argsOk k.op par a l = true := by
  cases n <;> cases h <;> cases hc <;> rfl

/-- SELFTEST at the first statement of a step whose number STEP holds. -/
theorem RunInv.first (n : TestStep) (ho : s.opL = .selftest) (hn : s.stepNo = n.number) : RunInv s n.first where
  legal := by rw [ho, n.first_legal]
  phase := by
    rw [ho, n.first_phaseAt]
    rintro f ⟨⟩
  stepNo := by
    rw [n.first_stepAt]
    rintro m ⟨⟩
    exact hn
  stepLe := hn ▸ n.number_le
  args := by
    rintro m (h | ⟨k, h⟩) hc
    · cases n <;> cases h
    · rw [h]
      exact n.first_args h hc _ _ _
  span := by rintro rd (h | ⟨k, h⟩) <;> cases n <;> cases h

/-- SELFTEST at a statement of its own (R610). -/
theorem RunInv.seq {a : Seq} (ho : s.opL = .selftest) (hl : (Pos.seq a).legal .selftest = true)
    (hn : ∀ n, stepAt (.seq a) = some n → s.stepNo = n) (hle : s.stepNo ≤ 9) : RunInv s (.seq a) where
  legal := ho ▸ hl
  phase := by rintro f ⟨⟩
  stepNo := hn
  stepLe := hle
  args := by rintro m (h | ⟨k, h⟩) <;> cases h
  span := by rintro rd (h | ⟨k, h⟩) <;> cases h

/-- Completion keeps the invariant when the code is one the operation can end with (R522, R703). -/
theorem Inv.finish {e : Err} (hi : Inv s) (hr : mayRaise s.opL e = true)
    (hn : s.stepNo ≤ 9 ∧ (s.opL ≠ .selftest → s.stepNo = 0)) : Inv (s.finish e) where
  par := hi.par
  busyRun := by simp
  exclusive := by simp
  errOk := by simp
  raised := fun _ => hr
  bufWf := hi.bufWf
  bufRange := hi.bufRange
  stepIdle := fun _ => hn
  run := by simp
  trace := hi.trace

theorem Inv.seq {a : Seq} (hi : Inv s) (ho : s.opL = .selftest) (hp : s.mstate = .run (.seq a)) :
    Inv (seqStep a s) := by
  have hrun := hi.run _ hp
  have hle := hrun.stepLe
  have moved {p' : Pos} (hm : (seqStep a s).mstate = .run p') (hr : RunInv (seqStep a s) p')
      (hc : (seqStep a s).busy = s.busy ∧ (seqStep a s).done = s.done ∧ (seqStep a s).err = s.err) :
      Inv (seqStep a s) := by
    have hq := seqStep_quiet a s
    obtain ⟨hbuf, -, -, -, hbt⟩ := hq.keeps
    exact hi.running hp hq.sameLatches hc (hbuf ▸ hi.bufOk) (hbt ▸ hi.trace) hm hr
  cases a with
  | setStep n => exact moved rfl (.first n ho rfl) ⟨rfl, rfl, rfl⟩
  | settleStart =>
    refine moved rfl (.seq ho rfl ?_ hle) ⟨rfl, rfl, rfl⟩
    rintro n ⟨⟩
    exact hrun.stepNo 1 rfl
  | settle ts =>
    have hone : s.stepNo = 1 := hrun.stepNo 1 rfl
    by_cases hs : settled s.par ts s.draws.now = true
    · have heq : seqStep (.settle ts) s = s.afterNow.moveTo (.seq (.pass .one)) := if_pos hs
      rw [heq] at moved ⊢
      refine moved rfl (.seq ho rfl ?_ hle) ⟨rfl, rfl, rfl⟩
      rintro n ⟨⟩
      exact hone
    · have heq : seqStep (.settle ts) s = s.afterNow := if_neg hs
      rw [heq] at moved ⊢
      refine moved hp (.seq ho rfl ?_ hle) ⟨rfl, rfl, rfl⟩
      rintro n ⟨⟩
      exact hone
  | pass n =>
    have hnum : s.stepNo = n.number := hrun.stepNo _ rfl
    cases hsucc : n.succ with
    | none =>
      have hnext : n.next = .seq (.finish .ok) := by rw [TestStep.next, hsucc]
      refine moved (congrArg MState.run hnext) (.seq ho rfl ?_ hle) ⟨rfl, rfl, rfl⟩
      rintro m ⟨⟩
    | some n' =>
      have hnext : n.next = .seq (.setStep n') := by rw [TestStep.next, hsucc]
      refine moved (congrArg MState.run hnext) (.seq ho rfl ?_ hle) ⟨rfl, rfl, rfl⟩
      rintro m ⟨⟩
      exact hnum.trans (TestStep.succ_number hsucc).symm
  | fail n e =>
    refine moved rfl (.seq ho rfl ?_ hle) ⟨rfl, rfl, rfl⟩
    rintro m ⟨⟩
  | finish e =>
    refine hi.finish ?_ ⟨hle, fun hself => absurd ho hself⟩
    rw [ho]
    rfl

/-- The engine step keeps the invariant, wherever the engine stands. -/
theorem Inv.engine (hi : Inv s) (hp : s.mstate = .run p) (ht : exec s.opL.instr s = .next t) : Inv t := by
  have hb : s.busy = true := hi.busyRun.mpr (by simp [hp])
  have hrun := hi.run p hp
  obtain ⟨x, m, h, hm⟩ | ⟨a, rfl, ho⟩ | ⟨e, rfl, ho, hr⟩ := legal_cases hb hp hrun.legal
  · exact hi.body h hm ht
  · cases (exec_run_seq hb ho hp).symm.trans ht
    exact hi.seq ho hp
  · cases (exec_run_finish hb ho hp).symm.trans ht
    exact hi.finish hr ⟨hrun.stepLe, fun _ => hrun.stepNo 0 rfl⟩

/-! ## The steps that stop (R142, R706) -/

theorem exec_device_total (name : DevName) (a n : Word) :
    (∃ t, exec (name.instr a n) s = .next t) ∨ name = .pp4 ∧ exec (name.instr a n) s = .fault .unwrittenBuf := by
  by_cases hw : ∃ w, s.wdataOf name n w
  · obtain ⟨w, hw⟩ := hw
    obtain ⟨t, r, ht, -⟩ := exec_device (a := a) hw
    exact .inl ⟨t, ht⟩
  · have hname : name = .pp4 := by
      by_contra hname
      exact hw ⟨[], (if_neg hname).mpr rfl⟩
    subst hname
    refine .inr ⟨rfl, execPp4_unwritten (Option.eq_none_iff_forall_ne_some.mpr fun w hr => hw ⟨w, hr⟩)⟩

/-- A statement of a body stops only at PP4 and at VERIFY_DATA's compare, over an unwritten byte. -/
theorem body_total (h : s.inBody x m p) (hm : bodyStmt x m = true) :
    (∃ t, exec s.opL.instr s = .next t) ∨ exec s.opL.instr s = .fault .unwrittenBuf ∧
      ((Pos.op m).issues x = some .pp4 ∨ x = .verifyData ∧ ∃ rd, m = .compare rd) := by
  cases hi : (Pos.op m).issues x with
  | some name =>
    rw [exec_inBody_issues h hm hi]
    exact (exec_device_total name _ _).imp_right fun ⟨hname, hf⟩ => ⟨hf, .inl (congrArg some hname)⟩
  | none =>
    cases bodyAt_of_bodyStmt hm with
    | gap hx c => exact .inl ⟨_, Proofs.gapWaitStep s p x c hx h⟩
    | issue hx => exact .inl ⟨_, (Proofs.mutatingCommand s p x hx).1 h⟩
    | check hx => exact .inl ⟨_, exec_check hx h⟩
    | command hx => obtain rfl | rfl | rfl := hx <;> cases hi
    | compare hx rd =>
      obtain rfl | rfl := hx
      · exact .inl ⟨_, exec_compareErased h⟩
      · cases hxs : s.buf.readList 0 (s.argsAt p).n.toNat with
        | none => exact .inr ⟨exec_compareData_unwritten h hxs, .inr ⟨rfl, rd, rfl⟩⟩
        | some xs => exact .inl ⟨_, exec_compareData h hxs⟩
    | _ => cases hi

theorem engine_total (hi : Inv s) (hp : s.mstate = .run p) :
    (∃ t, exec s.opL.instr s = .next t) ∨ exec s.opL.instr s = .fault .unwrittenBuf ∧
      (p.issues s.opL = some .pp4 ∨ p.opOf s.opL = .verifyData ∧
        ∃ rd, p = .op (.compare rd) ∨ ∃ k, p = .sub k (.compare rd)) := by
  have hb : s.busy = true := hi.busyRun.mpr (by simp [hp])
  obtain ⟨x, m, h, hm⟩ | ⟨a, rfl, ho⟩ | ⟨e, rfl, ho, -⟩ := legal_cases hb hp (hi.run p hp).legal
  · refine (body_total h hm).imp_right fun ⟨hf, hc⟩ => ⟨hf, hc.imp (h.issues.trans ·) ?_⟩
    rintro ⟨hx, rd, rfl⟩
    refine ⟨h.opOf.trans hx, rd, ?_⟩
    obtain ⟨-, -, ⟨rfl, -⟩ | ⟨k, rfl, -⟩⟩ := h
    · exact .inl rfl
    · exact .inr ⟨k, rfl⟩
  · exact .inl ⟨_, exec_run_seq hb ho hp⟩
  · exact .inl ⟨_, exec_run_finish hb ho hp⟩

theorem hostAccess_total (a : HostAccess) (s : State) :
    (∃ t, hostAccess a s = .next t) ∨
      (hostAccess a s = .fault .unwrittenBuf ∧ ∃ off w, a = .read off w) ∨
      hostAccess a s = .refused .registerAccess ∨ hostAccess a s = .refused .bufAccess := by
  cases a with
  | write off w v =>
    cases ht : target s.par off w <;> simp [hostAccess, hostWrite, ht]
  | read off w =>
    cases ht : target s.par off w with
    | buf i => cases hr : s.buf.readList i w.bytes <;> simp [hostAccess, hostRead, ht, hr]
    | _ => simp [hostAccess, hostRead, ht]

end Sys2Proof.Machine

/-! ## The invariant's statements -/

namespace Sys2Proof.Proofs
open Sys2Proof Sys2Proof.Machine

/-- Settles O48: the reset state is a block reset's. -/
theorem resetMeetsInv : Obligations.ResetMeetsInv :=
  inv_blockReset (s := State.reset) (by decide) (by simp [State.reset])

/-- Settles O49. -/
theorem stepKeepsInv : Obligations.StepKeepsInv := by
  intro s s' hi h
  cases step_cases h with
  | blockReset q _ ht => exact ht ▸ inv_blockReset hi.par hi.trace
  | accept a q v _ _ ht => exact ht ▸ (hi.withInbox q).accept _
  | access a q _ _ ht => exact (hi.withInbox q).access (hostAccess_cases ht)
  | wait _ _ ht => exact ht ▸ hi.withInbox _
  | engine p hp ht => exact (hi.withInbox s.inbox.tail).engine (State.engineAt_eq_some.mp hp).2 ht

/-- Settles O50: by whose turn it is. -/
theorem onlyModelFaults : Obligations.OnlyModelFaults := by
  intro s hi
  have next {t : State} (h : step s = .next t) (P : Fault → Prop) (Q : Refusal → Prop) :
      (∀ f, step s = .fault f → P f) ∧ ∀ r, step s = .refused r → Q r := by
    rw [h]
    exact ⟨by rintro f ⟨⟩, by rintro r ⟨⟩⟩
  by_cases hturn : s.engineTurn = true
  · cases hm : s.mstate with
    | idle => exact next (step_idle hturn hm) _ _
    | run p =>
      have hp := State.engineAt_eq_some.mpr ⟨hturn, hm⟩
      obtain ⟨t, ht⟩ | ⟨ht, hc⟩ := engine_total (hi.withInbox s.inbox.tail) hm
      · exact next ((step_engineAt hp).trans ht) _ _
      · rw [(step_engineAt hp).trans ht]
        refine ⟨?_, by rintro r ⟨⟩⟩
        rintro f ⟨⟩
        exact ⟨rfl, .inr (hc.imp (fun h => ⟨p, hp, h⟩) fun ⟨hx, rd, h⟩ => ⟨p, rd, hp, hx, h⟩)⟩
  · cases hq : s.inbox with
    | nil => simp [State.engineTurn, hq] at hturn
    | cons i q =>
      rw [← hq]
      cases i with
      | engine => simp [State.engineTurn, hq] at hturn
      | rst => exact next (step_rst hq) _ _
      | host a =>
        cases hv : s.cmdStart a with
        | some v => exact next (step_cmdStart hq hv) _ _
        | none =>
          have hstep := step_hostAccess hq hv
          obtain ⟨t, ht⟩ | ⟨ht, off, w, rfl⟩ | ht | ht := hostAccess_total a { s with inbox := q }
          · exact next (hstep.trans ht) _ _
          · rw [hstep.trans ht]
            refine ⟨?_, by rintro r ⟨⟩⟩
            rintro f ⟨⟩
            exact ⟨rfl, .inl ⟨off, w, q, hq⟩⟩
          · rw [hstep.trans ht]
            exact ⟨by rintro f ⟨⟩, by rintro r ⟨⟩; exact ⟨.inl rfl, a, q, hq⟩⟩
          · rw [hstep.trans ht]
            exact ⟨by rintro f ⟨⟩, by rintro r ⟨⟩; exact ⟨.inr rfl, a, q, hq⟩⟩

end Sys2Proof.Proofs
end

section
/-! SUPPORT. The causes of a change of PHASE, statement by statement (R120). -/

namespace Sys2Proof.Machine

variable {s t : State} {p : Pos} {x : Op} {m : Stmt} {q : List Input}

theorem State.inBody.pos (h : s.inBody x m p) : p = .op m ∨ ∃ k, p = .sub k m := by
  obtain ⟨-, -, ⟨rfl, -⟩ | ⟨k, rfl, -⟩⟩ := h
  · exact .inl rfl
  · exact .inr ⟨k, rfl⟩

theorem seqStep_phase (a : Seq) (s : State) : (seqStep a s).phase = s.phase := by
  cases a with
  | settle ts =>
    simp only [seqStep]
    split <;> rfl
  | _ => rfl

theorem elim_outcome {α : Type} (r : BusRecord) (a b : α) :
    r.result.elim (fun _ => a) (fun _ => b) = if r.outcome = .ok then a else b := by
  obtain ⟨ho, hr⟩ | ⟨ho, hr⟩ | ⟨ho, hr⟩ := r.result_cases <;> rw [hr, ho] <;> rfl

theorem State.pollSample_eq (s : State) (c : Option PollTimes) :
    s.pollSample c = (transferDraws (s.desc .rdsr 0 0) (s.pollEntry c).draws).now := by
  cases c <;> rfl

theorem pollPred_handshake {par : Params} (hx : x ≠ .waitBusy) (b : Byte) :
    pollPred par x b = b.getLsbD par.welBit.val := by
  cases x <;> first | rfl | exact absurd rfl hx

theorem pollPred_waitBusy {par : Params} (hx : x = .waitBusy) {b : Byte} (h : pollPred par x b = true) :
    b.getLsbD par.wipBit.val = false := by
  subst hx
  exact (Bool.not_eq_true' _).mp h

/-- PHASE before a poll of the handshake (R460). -/
theorem phase_handshake {c : Option PollTimes} (hi : RunInv s p) (h : s.inBody x (.poll c) p)
    (hx : x.Handshakes) : s.phase = .wePending := by
  refine phaseAt_inBody hi h ?_
  obtain rfl | rfl | rfl | rfl := hx <;> rfl

theorem PollCase.phaseRow {c : Option PollTimes} (hat : s.engineAt = some p) (hi : RunInv s p)
    (h : s.inBody x (.poll c) p) (hx : x = .waitBusy ∨ x.Handshakes)
    (ht : PollCase (State.pollEntry { s with inbox := q } c) p (s.loopEntry c) t) :
    t.phase = s.phase ∨ PhaseRow s t := by
  have hop : p.opOf s.opL = x := h.opOf
  obtain rfl | hx := hx
  · cases ht with
    | failed e _ ht => exact .inl (ht ▸ if_pos hop)
    | expired b _ _ _ ht => exact .inl (ht ▸ if_pos hop)
    | again b c' _ _ _ _ ht => exact .inl (ht ▸ rfl)
    | done b hr hp ht =>
      have hf : t.phase = if s.phase = .deviceBusy then .idle else s.phase := ht ▸ if_pos hop
      by_cases hbusy : s.phase = .deviceBusy
      · obtain ⟨hok, hrd⟩ := BusRecord.result_ok hr
        have hwip : b.getLsbD s.par.wipBit.val = false := pollPred_waitBusy hop hp
        subst ht
        exact .inr (.waited p _ hat h.issues hop hbusy rfl hok hrd hwip (hf.trans (if_pos hbusy)))
      · exact .inl (hf.trans (if_neg hbusy))
  · have hne : p.opOf s.opL ≠ .waitBusy := by
      rw [hop]
      obtain rfl | rfl | rfl | rfl := hx <;> decide
    have hsrc := phase_handshake hi h hx
    cases ht with
    | failed e hr ht =>
      have hbad : (State.record (State.pollEntry { s with inbox := q } c) (s.desc .rdsr 0 0) []).outcome ≠ .ok := by
        obtain ⟨ho, -⟩ | ⟨ho, -⟩ := BusRecord.result_err hr <;> exact fun hok => by cases ho.symm.trans hok
      subst ht
      exact .inr (.handshake p c _ hat h.pos hne hsrc rfl (.inr ⟨if_neg hne, .inl hbad⟩))
    | expired b hr hp hd ht =>
      obtain ⟨hok, hrd⟩ := BusRecord.result_ok hr
      have hwel : b.getLsbD s.par.welBit.val = false := (pollPred_handshake hne b).symm.trans hp
      have htmo : pollTmo s.par (p.opOf s.opL) (s.argsAt p).t = s.par.tWelMs := (pollTmo_eq ..).trans (if_neg hne)
      have hlate : s.par.tWelMs.toNat ≤ (elapsed (s.loopEntry c) (s.pollSample c)).toNat := by
        rw [← htmo, s.pollSample_eq c]
        exact hd
      subst ht
      exact .inr (.handshake p c _ hat h.pos hne hsrc rfl (.inr ⟨if_neg hne, .inr ⟨hok, hrd, hwel, hlate⟩⟩))
    | again b c' _ _ _ _ ht => exact .inl (ht ▸ rfl)
    | done b hr hp ht =>
      obtain ⟨hok, hrd⟩ := BusRecord.result_ok hr
      have hwel : b.getLsbD s.par.welBit.val = true := (pollPred_handshake hne b).symm.trans hp
      subst ht
      exact .inr (.handshake p c _ hat h.pos hne hsrc rfl (.inl ⟨if_neg hne, hok, hrd, hwel⟩))

theorem BodyStep.phaseRow (hat : s.engineAt = some p) (hi : RunInv s p) (h : s.inBody x m p)
    (hm : bodyStmt x m = true) (hb : BodyStep { s with inbox := q } x p t m) :
    t.phase = s.phase ∨ PhaseRow s t := by
  cases hb with
  | rsten _ _ _ hf | rdid _ _ _ hf | gap _ _ _ hf | check _ _ hf | read _ _ _ hf | readSpan _ _ _ _ hf
  | compare _ _ _ hf => exact .inl hf
  | rst hx r hr _ hf =>
    rw [elim_outcome] at hf
    by_cases hok : r.outcome = .ok
    · exact .inr (.reset p r hat h.issues hr hok (hf.trans (if_pos hok)))
    · exact .inl (hf.trans (if_neg hok))
  | wren hx r hr _ hf => exact .inr (.weBegins p r hat h.issues hr (hf.trans (elim_outcome ..)))
  | issue hx _ hf => exact .inr (.issued p hat h.pos (phaseAt_inBody hi h rfl) hf)
  | command hx r hr _ hf =>
    exact .inr (.command p r hat h.pos (phaseAt_inBody hi h rfl) hr (hf.trans (elim_outcome ..)))
  | poll hx c ht => exact ht.phaseRow hat hi h hx

end Sys2Proof.Machine

namespace Sys2Proof.Proofs
open Sys2Proof Sys2Proof.Machine

/-- Settles O51. -/
theorem phaseTable : Obligations.PhaseTable := by
  intro s s' hi h
  cases step_cases h with
  | blockReset q hq ht => exact .inr (.blockReset q hq (ht ▸ rfl))
  | accept a q v _ _ ht => exact .inl (ht ▸ rfl)
  | access a q _ _ ht => exact .inl (by rw [(hostAccess_cases ht).frame])
  | wait _ _ ht => exact .inl (ht ▸ rfl)
  | engine p hat ht =>
    have hp := (State.engineAt_eq_some.mp hat).2
    have hb : s.busy = true := hi.busyRun.mpr (by simp [hp])
    have hrun := hi.run p hp
    obtain ⟨x, m, hbody, hm⟩ | ⟨a, rfl, ho⟩ | ⟨e, rfl, ho, -⟩ := legal_cases hb hp hrun.legal
    · exact (exec_bodyStep (s := { s with inbox := s.inbox.tail }) hbody hm ht).phaseRow hat hrun hbody hm
    · cases (exec_run_seq (s := { s with inbox := s.inbox.tail }) hb ho hp).symm.trans ht
      exact .inl (seqStep_phase ..)
    · cases (exec_run_finish (s := { s with inbox := s.inbox.tail }) hb ho hp).symm.trans ht
      exact .inl rfl

end Sys2Proof.Proofs
end

section
/-! SUPPORT. What no step of a running operation reads: SR, PHASE (but to write PHASE) and the operand registers (R115, R120, R121). -/

namespace Sys2Proof.Machine

variable {s t : State} {p : Pos} {x : Op} {m : Stmt} {name : DevName} {a n : Word}

/-! ## The fields and their independence -/

/-- The fields the engine does not read. -/
structure Unread where
  sr : Byte
  phase : Phase
  addr : Word
  len : Word
  tmo : Word
  tmoShort : Word

/-- `s` with these values in the fields the engine does not read. -/
def State.withUnread (s : State) (v : Unread) : State :=
  { s with sr := v.sr, phase := v.phase, addr := v.addr, len := v.len, tmo := v.tmo, tmoShort := v.tmoShort }

/-- `g` applied to the next state, where there is one. -/
def mapNext (g : State → State) (o : Outcome) : Outcome :=
  match o with
  | .next t => .next (g t)
  | .fault e => .fault e
  | .refused r => .refused r

/-- A step that reads none of these fields: it keeps the operand registers, writes SR from the old SR alone, and PHASE from the old PHASE alone. -/
def Blind (f : State → Outcome) (s : State) : Prop :=
  ∃ (o : Outcome) (sr : Byte → Byte) (phase : Phase → Phase), ∀ v : Unread,
    f (s.withUnread v) = mapNext (State.withUnread · { v with sr := sr v.sr, phase := phase v.phase }) o

/-- A step that answers one next state, but for these fields. -/
theorem Blind.next {f : State → Outcome} (t : State) (sr : Byte → Byte) (phase : Phase → Phase)
    (h : ∀ v, f (s.withUnread v) = .next (t.withUnread { v with sr := sr v.sr, phase := phase v.phase })) :
    Blind f s := ⟨.next t, sr, phase, h⟩

theorem Blind.fault {f : State → Outcome} (e : Fault) (h : ∀ v, f (s.withUnread v) = .fault e) : Blind f s :=
  ⟨.fault e, id, id, h⟩

/-! ## The device instructions -/

/-- A poll writes SR from its byte, and PHASE as its case says. -/
theorem pollFrom_blind (s : State) (p : Pos) (t0 : Word) : Blind (fun s => .next (s.pollFrom p t0)) s := by
  obtain ⟨e, he⟩ | ⟨b, hb⟩ := transfer_rdsr_result s.par.tBusMs s.par.ins [] s.draws
  · refine .next { s.xact (s.desc .rdsr 0 0) [] with mstate := .run (p.leave e) } id
      (fun f => if p.opOf s.opL = .waitBusy then f else .idle) fun v => congrArg _ ?_
    exact (pollFrom_err (s := s.withUnread v) he).trans (State.pollFail_eq ..)
  · cases hp : pollPred s.par (p.opOf s.opL) b with
    | true =>
      refine .next { s.xact (s.desc .rdsr 0 0) [] with
          mstate := .run (if p.opOf s.opL = .waitBusy ∨ p.opOf s.opL = .writeEnable then p.leave .ok
            else p.goto .issue) } (fun _ => b)
        (fun f => if p.opOf s.opL = .waitBusy then (if f = .deviceBusy then .idle else f) else .weLatched)
        fun v => congrArg _ ?_
      exact (pollFrom_done (s := s.withUnread v) hb hp).trans (State.pollDone_eq ..)
    | false =>
      have hagain (v : Unread) := pollFrom_again (s := s.withUnread v) (t0 := t0) hb hp
      by_cases hd : (pollTmo s.par (p.opOf s.opL) (s.argsAt p).t).toNat ≤
          (elapsed t0 (transferDraws (s.desc .rdsr 0 0) s.draws).now).toNat
      · refine .next { (s.xact (s.desc .rdsr 0 0) []).afterNow with mstate := .run (p.leave .timeout) } (fun _ => b)
          (fun f => if p.opOf s.opL = .waitBusy then f else .idle) fun v => congrArg _ ((hagain v).trans ?_)
        rw [pollTmo_eq] at hd
        exact (State.pollAgain_expired (by exact hd)).trans (State.pollFail_eq ..)
      · refine .next { (s.xact (s.desc .rdsr 0 0) []).afterNow with
            mstate := .run (if s.par.pollGapMs = 0
              then p.goto (.poll (some ⟨t0, (transferDraws (s.desc .rdsr 0 0) s.draws).now⟩))
              else p.goto (.gap ⟨t0, (transferDraws (s.desc .rdsr 0 0) s.draws).now⟩)) } (fun _ => b) id
          fun v => congrArg _ ((hagain v).trans ?_)
        rw [pollTmo_eq] at hd
        exact State.pollAgain_open (by exact Nat.lt_of_not_le hd)

theorem commandDone_blind (d : Desc) (w : List Byte) (p : Pos) :
    Blind (fun s => .next ((s.xact d w).commandDone p (s.record d w).result)) s := by
  refine .next { s.xact d w with mstate := .run ((s.record d w).result.elim (fun _ => p.leave .ok) p.leave) } id
    (fun _ => (s.record d w).result.elim (fun _ => .deviceBusy) fun _ => .idle) fun v => ?_
  rw [State.commandDone_eq]
  rfl

theorem exec_device_blind (name : DevName) (a n : Word) (s : State) : Blind (exec (name.instr a n)) s := by
  by_cases hw : ∃ w, s.wdataOf name n w
  · obtain ⟨w, hw⟩ := hw
    cases hp : s.awaits name with
    | none => exact .next (s.xact (s.rowDesc name a n) w) id id fun v => exec_unawaited (s := s.withUnread v) hp hw
    | some p =>
      cases name with
      | rsten =>
        exact .next { s.xact (s.desc .rsten 0 0) [] with
            mstate := .run ((s.record (s.desc .rsten 0 0) []).result.elim (fun _ => p.goto .rst) p.leave) } id id
          fun v => execRsten_awaited (s := s.withUnread v) hp
      | rst =>
        exact .next { s.xact (s.desc .rst 0 0) [] with
            mstate := .run ((s.record (s.desc .rst 0 0) []).result.elim (fun _ => p.leave .ok) p.leave) } id
          (fun f => (s.record (s.desc .rst 0 0) []).result.elim (fun _ => .idle) fun _ => f)
          fun v => execRst_awaited (s := s.withUnread v) hp
      | rdid =>
        refine .next { s.xact (s.desc .rdid 0 0) [] with
            idBytes := (s.record (s.desc .rdid 0 0) []).result.elim packId fun _ => s.idBytes
            idv := (s.record (s.desc .rdid 0 0) []).result.elim (fun _ => true) fun _ => (s.clearIdv p).idv
            mstate := .run ((s.record (s.desc .rdid 0 0) []).result.elim (fun _ => p.leave .ok) p.leave) } id id
          fun v => (execRdid_awaited (s := s.withUnread v) hp).trans ?_
        cases p <;> rfl
      | rdsr =>
        obtain ⟨c, hc, -⟩ := execRdsr_awaited hp
        have hexec (v : Unread) : execRdsr (s.withUnread v) =
            .next (((s.pollEntry c).withUnread v).pollFrom p (s.loopEntry c)) := by
          have hm : (s.withUnread v).mstate = .run p := (awaits_eq_some.mp hp).1
          obtain rfl | ⟨k, rfl⟩ := hc <;> cases c <;> simp only [execRdsr, hm] <;> rfl
        obtain ⟨o, sr, phase, h⟩ := pollFrom_blind (s.pollEntry c) p (s.loopEntry c)
        exact ⟨o, sr, phase, fun v => (hexec v).trans (h v)⟩
      | wren =>
        exact .next { s.xact (s.desc .wren 0 0) [] with
            mstate := .run ((s.record (s.desc .wren 0 0) []).result.elim (fun _ => p.goto (.poll none)) p.leave) } id
          (fun _ => (s.record (s.desc .wren 0 0) []).result.elim (fun _ => .wePending) fun _ => .idle)
          fun v => execWren_awaited (s := s.withUnread v) hp
      | en4b =>
        obtain ⟨o, sr, phase, h⟩ := commandDone_blind (s := s) (s.desc .en4b 0 0) [] p
        exact ⟨o, sr, phase, fun v => (execEn4bBus_awaited (s := s.withUnread v) hp).trans (h v)⟩
      | se4 =>
        obtain ⟨o, sr, phase, h⟩ := commandDone_blind (s := s) (s.desc .se4 a 0) [] p
        exact ⟨o, sr, phase, fun v => (execSe4_awaited (s := s.withUnread v) hp).trans (h v)⟩
      | pp4 =>
        obtain ⟨o, sr, phase, h⟩ := commandDone_blind (s := s) (s.desc .pp4 a n) w p
        exact ⟨o, sr, phase, fun v => (execPp4_awaited (s := s.withUnread v) hp hw).trans (h v)⟩
      | read4 =>
        refine .next ((s.record (s.desc .read4 a n) []).result.elim
          ((s.xact (s.desc .read4 a n) []).readDone p) ((s.xact (s.desc .read4 a n) []).leave p)) id id
          fun v => (execRead4_awaited (s := s.withUnread v) hp).trans (congrArg _ ?_)
        change (s.record (s.desc .read4 a n) []).result.elim _ _ = _
        cases (s.record (s.desc .read4 a n) []).result with
        | err e => rfl
        | ok b =>
          simp only [XactResult.elim_ok, State.readDone_eq]
          rfl
  · have hname : name = .pp4 := by
      by_contra hname
      exact hw ⟨[], (if_neg hname).mpr rfl⟩
    subst hname
    have hnone : s.buf.readList 0 n.toNat = none := Option.eq_none_iff_forall_ne_some.mpr fun w hr => hw ⟨w, hr⟩
    exact .fault _ fun v => execPp4_unwritten (s := s.withUnread v) hnone

/-! ## The engine -/

theorem State.inBody.withUnread (h : s.inBody x m p) (v : Unread) : (s.withUnread v).inBody x m p := h

/-- A statement that a body does not have faults (R520). -/
theorem bodyOf_fault (h : bodyStmt x m = false) : bodyOf x m s = .fault .badPosition := by
  cases x <;> cases m <;> first | rfl | cases h

theorem compareWith_blind (p : Pos) (rd xs : List Byte) : Blind (fun s => .next (s.compareWith p rd xs)) s := by
  refine .next (s.compareWith p rd xs) id id fun v => ?_
  cases h : firstMismatch rd xs 0 with
  | none => simp only [State.compareWith_none h]; rfl
  | some y => simp only [State.compareWith_some h]; rfl

/-- A statement of a body reads none of these fields. -/
theorem exec_body_blind (h : s.inBody x m p)
    (hbody : ∀ v, exec s.opL.instr (s.withUnread v) = bodyOf x m (s.withUnread v)) :
    Blind (exec s.opL.instr) s := by
  by_cases hm : bodyStmt x m = true
  · have hxact (name : DevName) (hi : (Pos.op m).issues x = some name) : Blind (exec s.opL.instr) s := by
      obtain ⟨o, sr, phase, hb⟩ := exec_device_blind name (s.argsAt p).a (s.argsAt p).n s
      exact ⟨o, sr, phase, fun v => (exec_inBody_issues (h.withUnread v) hm hi).trans (hb v)⟩
    cases bodyAt_of_bodyStmt hm with
    | rsten hx | rst hx | rdid hx | wren hx | poll hx | read4 hx => exact hxact _ rfl
    | command hx => obtain rfl | rfl | rfl := hx <;> exact hxact _ rfl
    | gap hx c =>
      have hx : x = .waitBusy ∨ x = .writeEnable ∨ x = .en4b ∨ x = .erase ∨ x = .program := hx
      exact .next { s with
          draws := s.draws.afterNow
          mstate := .run (if s.par.pollGapMs.toNat ≤ (elapsed c.tlast s.draws.now).toNat ∨
              (if x = .waitBusy then (s.argsAt p).t else s.par.tWelMs).toNat ≤ (elapsed c.t0 s.draws.now).toNat
            then p.goto (.poll (some c)) else p) } id id fun v => Proofs.gapWaitStep (s.withUnread v) p x c hx h
    | issue hx =>
      exact .next { s with mstate := .run (p.goto .command) } id (fun _ => .cmdIssued)
        fun v => (Proofs.mutatingCommand (s.withUnread v) p x hx).1 h
    | check hx =>
      exact .next { s with mstate := .run (if argsOk x s.par (s.argsAt p).a (s.argsAt p).n = true
          then p.goto (afterCheck x) else p.leave .invalidArgument) } id id
        fun v => exec_check (s := s.withUnread v) hx h
    | compare hx rd =>
      obtain rfl | rfl := hx
      · obtain ⟨o, sr, phase, hb⟩ :=
          compareWith_blind (s := s) p rd (List.replicate (s.argsAt p).n.toNat s.par.erasedByte)
        exact ⟨o, sr, phase, fun v => (exec_compareErased (h.withUnread v)).trans (hb v)⟩
      · cases hd : s.buf.readList 0 (s.argsAt p).n.toNat with
        | none => exact .fault _ fun v => exec_compareData_unwritten (h.withUnread v) hd
        | some xs =>
          obtain ⟨o, sr, phase, hb⟩ := compareWith_blind (s := s) p rd xs
          exact ⟨o, sr, phase, fun v => (exec_compareData (h.withUnread v) hd).trans (hb v)⟩
  · exact .fault _ fun v => (hbody v).trans (bodyOf_fault (Bool.eq_false_iff.mpr hm))

/-- SELFTEST's own statements read none of these fields (R610). -/
theorem seqStep_blind (q : Seq) (s : State) : Blind (fun s => .next (seqStep q s)) s := by
  refine .next (seqStep q s) id id fun v => ?_
  cases q with
  | settle ts =>
    change Host.Outcome.next (if settled s.par ts s.draws.now then _ else _) =
      .next (State.withUnread (if settled s.par ts s.draws.now then _ else _) _)
    split <;> rfl
  | _ => rfl

/-- A running operation's step reads none of these fields (R115, R120, R121). -/
theorem exec_running_blind (hb : s.busy = true) (hp : s.mstate = .run p) : Blind (exec s.opL.instr) s := by
  by_cases ho : s.opL = .selftest
  · have hexec (v : Unread) := exec_run_selftest (s := s.withUnread v) hb ho hp
    cases p with
    | op m => exact .fault _ hexec
    | sub k m =>
      have h : s.inBody k.op m (.sub k m) := ⟨hb, hp, .inr ⟨k, rfl, rfl, ho⟩⟩
      exact exec_body_blind h fun v => exec_run_sub (s := s.withUnread v) hb ho hp
    | seq q =>
      obtain ⟨o, sr, phase, h⟩ := seqStep_blind q s
      exact ⟨o, sr, phase, fun v => (hexec v).trans (h v)⟩
  · have hexec (v : Unread) := exec_run_opStep (s := s.withUnread v) hb ho hp
    cases p with
    | sub k m | seq q => exact .fault _ hexec
    | op m =>
      by_cases hf : ∃ e, m = .finish e
      · obtain ⟨e, rfl⟩ := hf
        exact .next (s.finish e) id id hexec
      · exact exec_body_blind ⟨hb, hp, .inl ⟨rfl, rfl⟩⟩
          fun v => exec_run_op (s := s.withUnread v) hb hp fun e he => hf ⟨e, he⟩

/-! ## SR and PHASE, at any instruction -/

theorem State.running_eq_some {o : Op} (h : s.running o = some p) : s.opL = o ∧ s.mstate = .run p := by
  unfold State.running at h
  cases hm : s.mstate with
  | idle => simp [hm] at h
  | run q => simpa [hm] using h

/-- A request of an operation that does not run, while another does, is its reject (R132). -/
theorem exec_reject {o : Op} (hb : s.busy = true) (hr : s.running o = none) : exec o.instr s = .next s.reject := by
  have hop : ∃ f, exec o.instr s = hostOp o f s := by cases o <;> exact ⟨_, rfl⟩
  obtain ⟨f, hf⟩ := hop
  simp [hf, hostOp, hb, hr]

/-- A step that writes SR from the old SR alone and PHASE from the old PHASE alone, and nothing else from them. -/
def StatusBlind (f : State → Outcome) (s : State) : Prop :=
  ∃ (o : Outcome) (sr : Byte → Byte) (phase : Phase → Phase), ∀ x ph,
    f { s with sr := x, phase := ph } = mapNext (fun t => { t with sr := sr x, phase := phase ph }) o

theorem Blind.status {f : State → Outcome} (h : Blind f s) : StatusBlind f s := by
  obtain ⟨o, sr, phase, h⟩ := h
  refine ⟨mapNext (fun t => { t with addr := s.addr, len := s.len, tmo := s.tmo, tmoShort := s.tmoShort }) o,
    sr, phase, fun x ph => (h ⟨x, ph, s.addr, s.len, s.tmo, s.tmoShort⟩).trans ?_⟩
  cases o <;> rfl

theorem exec_status_blind (i : Instr) (s : State) : StatusBlind (exec i) s := by
  cases ho : i.op with
  | none =>
    obtain ⟨name, a, n, hd⟩ := Instr.device_of_op_none ho
    rw [Instr.eq_device_instr hd s.par.ins]
    exact (exec_device_blind ..).status
  | some o =>
    rw [Instr.eq_op_instr ho]
    by_cases hb : s.busy = false
    · exact ⟨.next (s.accept o), id, id, fun _ _ => exec_accept o hb⟩
    · have hb : s.busy = true := Bool.eq_true_of_not_eq_false hb
      cases hr : s.running o with
      | none => exact ⟨.next s.reject, id, id, fun _ _ => exec_reject hb hr⟩
      | some p =>
        obtain ⟨rfl, hp⟩ := State.running_eq_some hr
        exact (exec_running_blind hb hp).status

end Sys2Proof.Machine

/-! ## The statements of 10_state.md on non-interference -/

namespace Sys2Proof.Proofs
open Sys2Proof Sys2Proof.Machine

/-- Settles O58: the step reads neither the registers nor SR and PHASE, which the statement keeps. -/
theorem engineReadsOnlyLatches : Obligations.EngineReadsOnlyLatches := by
  rintro s _ p a l t ts ⟨hb, rfl, hp⟩
  obtain ⟨o, sr, phase, h⟩ := exec_running_blind hb hp
  have h0 : exec s.opL.instr s = _ := h ⟨s.sr, s.phase, s.addr, s.len, s.tmo, s.tmoShort⟩
  have h1 : exec s.opL.instr { s with addr := a, len := l, tmo := t, tmoShort := ts } = _ :=
    h ⟨s.sr, s.phase, a, l, t, ts⟩
  rw [h0, h1]
  cases o with
  | next u => exact ⟨fun s' hs => by cases hs; rfl, fun e he => nomatch he⟩
  | fault f => exact ⟨fun s' hs => (nomatch hs), fun e he => he⟩
  | refused r => exact ⟨fun s' hs => (nomatch hs), fun e he => nomatch he⟩

/-- Settles O57. -/
theorem engineReadsNeitherSrNorPhase : Obligations.EngineReadsNeitherSrNorPhase := by
  intro i s x f
  obtain ⟨o, sr, phase, h⟩ := exec_status_blind i s
  have h0 : exec i s = _ := h s.sr s.phase
  have h1 : exec i { s with sr := x } = _ := h x s.phase
  have h2 : exec i { s with phase := f } = _ := h s.sr f
  rw [h0, h1, h2, h x f]
  cases o with
  | next u => exact ⟨fun t ht => by cases ht; exact ⟨sr x, phase f, rfl, rfl, rfl⟩, fun e he => nomatch he⟩
  | fault g => exact ⟨fun t ht => (nomatch ht), fun e he => ⟨he, he, he⟩⟩
  | refused r => exact ⟨fun t ht => (nomatch ht), fun e he => nomatch he⟩

end Sys2Proof.Proofs
end

section
/-! SUPPORT. Runs of whole bodies: the successful transaction, the steps of each body when every call is `Ok`, and accept and `finish` around them. -/

namespace Sys2Proof.Machine

variable {s t u : State} {p : Pos} {x o : Op} {m m' : Stmt} {name : DevName} {a n : Word} {w rd : List Byte}
  {bus : List BusOutcome} {rx : List Byte} {b : Byte} {j k : Nat} {e : Err}

/-! ## The oracle answers left (R8) -/

@[simp] theorem Draws.afterNow_bus (q : Draws) : q.afterNow.bus = q.bus := by
  unfold Draws.afterNow
  split <;> rfl

@[simp] theorem Draws.afterNow_rx (q : Draws) : q.afterNow.rx = q.rx := by
  unfold Draws.afterNow
  split <;> rfl

theorem Draws.eq_mk {q : Draws} {tick : List Word} (hb : q.bus = bus) (hr : q.rx = rx) (ht : q.tick = tick) :
    q = ⟨bus, rx, tick, q.next⟩ := by
  rw [← hb, ← hr, ← ht]

theorem State.exists_withDraws {q : Draws} (h : s.draws = q) : ∃ s' : State, s = { s' with draws := q } :=
  ⟨s, by rw [← h]⟩

/-! ## A successful transaction (R403) -/

/-- The record of a transaction whose every call is `Ok` (R410). -/
def State.okRecord (s : State) (name : DevName) (a n : Word) (w rd : List Byte) : BusRecord :=
  { desc := s.desc name a n, wdata := w
    calls := ⟨.send, s.par.tBusMs, .ok⟩ :: (match name.dir with
      | .none => []
      | .write => [⟨.transmit, s.par.tBusMs, .ok⟩]
      | .read => [⟨.receive, s.par.tBusMs, .ok⟩])
    outcome := .ok, rdata := rd }

/-- The state after it, with the answers that are left. -/
def State.sent (s : State) (name : DevName) (a n : Word) (w rd : List Byte) (bus : List BusOutcome)
    (rx : List Byte) : State :=
  { s with bt := s.bt ++ [s.okRecord name a n w rd], draws := { s.draws with bus := bus, rx := rx } }

/-- Every call of the transaction is `Ok`; it returns `rd`, and leaves the answers `bus` and `rx`. -/
structure State.Serves (s : State) (name : DevName) (a n : Word) (w rd : List Byte) (bus : List BusOutcome)
    (rx : List Byte) : Prop where
  record : s.record (s.desc name a n) w = s.okRecord name a n w rd
  xact : s.xact (s.desc name a n) w = s.sent name a n w rd bus rx

theorem serves_none (hd : name.dir = .none) (hb : s.draws.bus = .ok :: bus) :
    s.Serves name a n w [] bus s.draws.rx := by
  have hdir : (s.desc name a n).dir = .none := hd
  constructor <;> simp [State.record, State.xact, State.sent, State.okRecord, transfer, transferDraws,
    Draws.outcome, Draws.afterOutcome, hb, hdir, hd]

theorem serves_write (hd : name.dir = .write) (hb : s.draws.bus = .ok :: .ok :: bus) :
    s.Serves name a n w [] bus s.draws.rx := by
  have hdir : (s.desc name a n).dir = .write := hd
  constructor <;> simp [State.record, State.xact, State.sent, State.okRecord, transfer, transferDraws,
    Draws.outcome, Draws.afterOutcome, hb, hdir, hd]

theorem serves_read (hd : name.dir = .read) (hl : (s.desc name a n).dlen.toNat = rd.length)
    (hb : s.draws.bus = .ok :: .ok :: bus) (hr : s.draws.rx = rd ++ rx) : s.Serves name a n w rd bus rx := by
  have hdir : (s.desc name a n).dir = .read := hd
  constructor <;> simp [State.record, State.xact, State.sent, State.okRecord, transfer, transferDraws,
    Draws.outcome, Draws.afterOutcome, Draws.bytes, Draws.afterBytes, hb, hr, hl, hdir, hd, drawBytes_append]

@[simp] theorem State.okRecord_result : (s.okRecord name a n w rd).result = .ok rd := rfl

/-! ## Steps of one operation -/

/-- `k` engine steps of the running operation lead from `s` to `t`, where it still runs. -/
structure State.Steps (s : State) (k : Nat) (t : State) : Prop where
  opL : t.opL = s.opL
  busy : t.busy = s.busy
  run : execTimes k s.opL.instr s = .next t

theorem steps_one (h : exec s.opL.instr s = .next t) (ho : t.opL = s.opL) (hb : t.busy = s.busy) : s.Steps 1 t :=
  ⟨ho, hb, execTimes_succ 0 h⟩

theorem execTimes_add {i : Instr} (h : execTimes j i s = .next t) : execTimes (j + k) i s = execTimes k i t := by
  induction j generalizing s with
  | zero =>
    cases h
    rw [Nat.zero_add]
  | succ j ih =>
    rw [Nat.add_right_comm]
    cases hs : exec i s with
    | next v =>
      rw [execTimes_succ _ hs] at h ⊢
      exact ih h
    | fault f | refused r => simp [execTimes, hs] at h

theorem State.Steps.trans (h : s.Steps j t) (h' : t.Steps k u) : s.Steps (j + k) u := by
  obtain ⟨ho, hb, hexec⟩ := h
  obtain ⟨ho', hb', hexec'⟩ := h'
  exact ⟨ho'.trans ho, hb'.trans hb, by rw [execTimes_add hexec, ← ho, hexec']⟩

theorem State.Steps.cons (h : s.Steps 1 t) (h' : t.Steps k u) : s.Steps (k + 1) u := Nat.add_comm 1 k ▸ h.trans h'

/-- A whole operation is its accept, its steps, and its `finish`. -/
theorem execTimes_accept_finish (hb : s.busy = false) (h : (s.accept o).Steps k t)
    (hend : exec o.instr t = .next (t.finish e)) : execTimes (k + 2) o.instr s = .next (t.finish e) := by
  have hsteps : execTimes (k + 1) o.instr (s.accept o) = execTimes 1 o.instr t := execTimes_add h.run
  rw [execTimes_succ (k + 1) (exec_accept o hb), hsteps, execTimes_succ 0 hend, execTimes]

/-- An operation other than SELFTEST from accept to `finish`. -/
theorem execTimes_whole (ho : o ≠ .selftest) (hb : s.busy = false) (h : (s.accept o).Steps k t)
    (hp : t.mstate = .run (.op (.finish e))) : execTimes (k + 2) o.instr s = .next (t.finish e) :=
  execTimes_accept_finish hb h (exec_runs_finish ho ⟨h.busy, h.opL, hp⟩)

/-- SELFTEST from accept to `finish`. -/
theorem execTimes_selftest (hb : s.busy = false) (h : (s.accept .selftest).Steps k t)
    (hp : t.mstate = .run (.seq (.finish e))) : execTimes (k + 2) .selftest s = .next (t.finish e) :=
  execTimes_accept_finish (o := .selftest) hb h (exec_runs_seq_finish ⟨h.busy, h.opL, hp⟩)

/-- The engine at the first statement, after accept (R131). -/
theorem State.accept_inBody (s : State) (ho : o ≠ .selftest) :
    (s.accept o).inBody o (firstStmt o) (.op (firstStmt o)) := by
  refine ⟨rfl, ?_, .inl ⟨rfl, rfl⟩⟩
  cases o with
  | selftest => exact absurd rfl ho
  | _ => rfl

theorem State.inBody.goto (h : s.inBody x m p) (hb : t.busy = s.busy) (ho : t.opL = s.opL)
    (hp : t.mstate = .run (p.goto m')) : t.inBody x m' (p.goto m') := by
  obtain ⟨hbusy, -, ⟨rfl, rfl⟩ | ⟨k, rfl, rfl, hs⟩⟩ := h
  · exact ⟨hb.trans hbusy, hp, .inl ⟨rfl, ho⟩⟩
  · exact ⟨hb.trans hbusy, hp, .inr ⟨k, rfl, rfl, ho.trans hs⟩⟩

@[simp] theorem Pos.goto_leave (p : Pos) (m : Stmt) (e : Err) : (p.goto m).leave e = p.leave e := by cases p <;> rfl
@[simp] theorem Pos.goto_goto (p : Pos) (m m' : Stmt) : (p.goto m).goto m' = p.goto m' := by cases p <;> rfl
@[simp] theorem State.argsAt_goto (s : State) (p : Pos) (m : Stmt) : s.argsAt (p.goto m) = s.argsAt p := by
  cases p <;> rfl

/-! ## The statements of the bodies, when every call is `Ok` -/

theorem rsten_step (h : s.inBody .reset .rsten p) (hs : s.Serves .rsten 0 0 [] [] bus rx) :
    s.Steps 1 { s.sent .rsten 0 0 [] [] bus rx with mstate := .run (p.goto .rst) } := by
  have hexec := (exec_inBody_issues h rfl rfl).trans (execRsten_awaited (h.awaits rfl))
  rw [hs.xact, hs.record] at hexec
  exact steps_one hexec rfl rfl

theorem rst_step (h : s.inBody .reset .rst p) (hs : s.Serves .rst 0 0 [] [] bus rx) :
    s.Steps 1 { s.sent .rst 0 0 [] [] bus rx with phase := .idle, mstate := .run (p.leave .ok) } := by
  have hexec := (exec_inBody_issues h rfl rfl).trans (execRst_awaited (h.awaits rfl))
  rw [hs.xact, hs.record] at hexec
  exact steps_one hexec rfl rfl

theorem rdid_step (h : s.inBody .readId .rdid p) (hs : s.Serves .rdid 0 0 [] rd bus rx) :
    s.Steps 1 { s.sent .rdid 0 0 [] rd bus rx with
      idBytes := packId rd, idv := true, mstate := .run (p.leave .ok) } := by
  have hexec := (exec_inBody_issues h rfl rfl).trans (execRdid_awaited (h.awaits rfl))
  rw [hs.xact, hs.record] at hexec
  exact steps_one hexec rfl rfl

theorem wren_step (hx : x.Handshakes) (h : s.inBody x .wren p) (hs : s.Serves .wren 0 0 [] [] bus rx) :
    s.Steps 1 { s.sent .wren 0 0 [] [] bus rx with phase := .wePending, mstate := .run (p.goto (.poll none)) } := by
  have hm : bodyStmt x .wren = true := by obtain rfl | rfl | rfl | rfl := hx <;> rfl
  have hexec := (exec_inBody_issues h hm rfl).trans (execWren_awaited (h.awaits rfl))
  rw [hs.xact, hs.record] at hexec
  exact steps_one hexec rfl rfl

/-- A poll whose byte satisfies the predicate (R452). -/
theorem poll_step {c : Option PollTimes} (hx : x = .waitBusy ∨ x.Handshakes) (h : s.inBody x (.poll c) p)
    (hs : (s.pollEntry c).Serves .rdsr 0 0 [] [b] bus rx) (hp : pollPred s.par x b = true) :
    s.Steps 1 { (s.pollEntry c).sent .rdsr 0 0 [] [b] bus rx with
      sr := b
      phase := if x = .waitBusy then (if s.phase = .deviceBusy then .idle else s.phase) else .weLatched
      mstate := .run (if x = .waitBusy ∨ x = .writeEnable then p.leave .ok else p.goto .issue) } := by
  have hr : ((s.pollEntry c).record ((s.pollEntry c).desc .rdsr 0 0) []).result = .ok [b] := by
    rw [hs.record, State.okRecord_result]
  have hdone := pollFrom_done (t0 := s.loopEntry c) hr (p := p) (by exact h.opOf ▸ hp)
  rw [hs.xact, State.pollDone_eq] at hdone
  have hexec := exec_poll hx h
  rw [hdone] at hexec
  rw [← h.opOf]
  exact steps_one hexec rfl rfl

/-- A poll of the handshake whose byte shows WEL (R460). -/
theorem poll_wel_step {c : Option PollTimes} (hx : x.Handshakes) (h : s.inBody x (.poll c) p)
    (hs : (s.pollEntry c).Serves .rdsr 0 0 [] [b] bus rx) (hb : b.getLsbD s.par.welBit.val = true) :
    s.Steps 1 { (s.pollEntry c).sent .rdsr 0 0 [] [b] bus rx with
      sr := b, phase := .weLatched, mstate := .run (if x = .writeEnable then p.leave .ok else p.goto .issue) } := by
  have hxw : x ≠ .waitBusy := by obtain rfl | rfl | rfl | rfl := hx <;> decide
  have hstep := poll_step (.inr hx) h hs ((pollPred_handshake hxw b).trans hb)
  simpa only [hxw, if_false, false_or] using hstep

/-- WAIT_BUSY's poll whose byte shows WIP = 0 (R470). -/
theorem poll_wip_step {c : Option PollTimes} (h : s.inBody .waitBusy (.poll c) p)
    (hs : (s.pollEntry c).Serves .rdsr 0 0 [] [b] bus rx) (hb : b.getLsbD s.par.wipBit.val = false) :
    s.Steps 1 { (s.pollEntry c).sent .rdsr 0 0 [] [b] bus rx with
      sr := b, phase := if s.phase = .deviceBusy then .idle else s.phase, mstate := .run (p.leave .ok) } :=
  poll_step (.inl rfl) h hs ((pollPred_eq_true_iff ..).mpr hb)

/-- A poll whose byte does not satisfy the predicate samples after its transaction (R453). -/
theorem exec_poll_again {c : Option PollTimes} (hx : x = .waitBusy ∨ x.Handshakes) (h : s.inBody x (.poll c) p)
    (hs : (s.pollEntry c).Serves .rdsr 0 0 [] [b] bus rx) (hp : pollPred s.par x b = false) :
    exec s.opL.instr s = .next
      ((State.afterNow { (s.pollEntry c).sent .rdsr 0 0 [] [b] bus rx with sr := b }).pollAgain p
        (s.loopEntry c) (s.pollEntry c).draws.now) := by
  have hr : ((s.pollEntry c).record ((s.pollEntry c).desc .rdsr 0 0) []).result = .ok [b] := by
    rw [hs.record, State.okRecord_result]
  have hnow : transferDraws ((s.pollEntry c).desc .rdsr 0 0) (s.pollEntry c).draws =
      { (s.pollEntry c).draws with bus := bus, rx := rx } := congrArg State.draws hs.xact
  have hagain := pollFrom_again (t0 := s.loopEntry c) hr (p := p) (by exact h.opOf ▸ hp)
  rw [hs.xact, hnow] at hagain
  exact (exec_poll hx h).trans (congrArg _ hagain)

/-- Before the deadline, and without an inter-poll gap, the next poll follows (R453). -/
theorem poll_again_step {c : Option PollTimes} (hx : x = .waitBusy ∨ x.Handshakes) (h : s.inBody x (.poll c) p)
    (hs : (s.pollEntry c).Serves .rdsr 0 0 [] [b] bus rx) (hp : pollPred s.par x b = false)
    (hd : (elapsed (s.loopEntry c) (s.pollEntry c).draws.now).toNat < (pollTmo s.par x (s.argsAt p).t).toNat)
    (hg : s.par.pollGapMs = 0) :
    s.Steps 1 { ((s.pollEntry c).sent .rdsr 0 0 [] [b] bus rx).afterNow with
      sr := b, mstate := .run (p.goto (.poll (some ⟨s.loopEntry c, (s.pollEntry c).draws.now⟩))) } := by
  rw [pollTmo_eq, ← h.opOf] at hd
  have hexec := (exec_poll_again hx h hs hp).trans (congrArg _ (State.pollAgain_open (by exact hd)))
  rw [State.afterNow_par, if_pos (by exact hg)] at hexec
  exact steps_one hexec rfl rfl

/-- At or after the deadline the loop ends (R453, R460, R470). -/
theorem poll_expired_step {c : Option PollTimes} (hx : x = .waitBusy ∨ x.Handshakes) (h : s.inBody x (.poll c) p)
    (hs : (s.pollEntry c).Serves .rdsr 0 0 [] [b] bus rx) (hp : pollPred s.par x b = false)
    (hd : (pollTmo s.par x (s.argsAt p).t).toNat ≤ (elapsed (s.loopEntry c) (s.pollEntry c).draws.now).toNat) :
    s.Steps 1 { ((s.pollEntry c).sent .rdsr 0 0 [] [b] bus rx).afterNow with
      sr := b, phase := if x = .waitBusy then s.phase else .idle, mstate := .run (p.leave .timeout) } := by
  rw [pollTmo_eq, ← h.opOf] at hd
  have hexec := (exec_poll_again hx h hs hp).trans
    (congrArg _ ((State.pollAgain_expired (by exact hd)).trans (State.pollFail_eq ..)))
  rw [← h.opOf]
  exact steps_one hexec rfl rfl

theorem issue_step (hx : x.Mutates) (h : s.inBody x .issue p) :
    s.Steps 1 { s with phase := .cmdIssued, mstate := .run (p.goto .command) } :=
  steps_one ((Proofs.mutatingCommand s p x hx).1 h) rfl rfl

/-- The row of a mutating operation's command (R526). -/
def commandRow : Op → DevName
  | .erase => .se4
  | .program => .pp4
  | _ => .en4b

/-- The successful calls of its transaction (R403). -/
def commandCalls : Op → List BusOutcome
  | .program => [.ok, .ok]
  | _ => [.ok]

/-- The write data of its transaction (R550). -/
def commandData (s : State) (p : Pos) (x : Op) (w : List Byte) : Prop :=
  if x = .program then s.buf.readList 0 (s.argsAt p).n.toNat = some w else w = []

theorem commandData_goto (s : State) (p : Pos) (m : Stmt) (x : Op) (w : List Byte) :
    commandData s (p.goto m) x w ↔ commandData s p x w := by
  rw [commandData, State.argsAt_goto]
  rfl

theorem serves_command (hx : x.Mutates) (hb : s.draws.bus = commandCalls x ++ bus) :
    s.Serves (commandRow x) a n w [] bus s.draws.rx := by
  obtain rfl | rfl | rfl := hx
  · exact serves_none rfl hb
  · exact serves_none rfl hb
  · exact serves_write rfl hb

theorem command_step (hx : x.Mutates) (h : s.inBody x .command p) (hw : commandData s p x w)
    (hs : s.Serves (commandRow x) (s.argsAt p).a (s.argsAt p).n w [] bus rx) :
    s.Steps 1 { s.sent (commandRow x) (s.argsAt p).a (s.argsAt p).n w [] bus rx with
      phase := .deviceBusy, mstate := .run (p.leave .ok) } := by
  have hdone : (s.xact (s.desc (commandRow x) (s.argsAt p).a (s.argsAt p).n) w).commandDone p
      (s.record (s.desc (commandRow x) (s.argsAt p).a (s.argsAt p).n) w).result =
        { s.sent (commandRow x) (s.argsAt p).a (s.argsAt p).n w [] bus rx with
          phase := .deviceBusy, mstate := .run (p.leave .ok) } := by
    rw [hs.xact, hs.record]
    rfl
  have hexec : exec s.opL.instr s =
      .next ((s.xact (s.desc (commandRow x) (s.argsAt p).a (s.argsAt p).n) w).commandDone p
        (s.record (s.desc (commandRow x) (s.argsAt p).a (s.argsAt p).n) w).result) := by
    obtain rfl | rfl | rfl := hx
    · obtain rfl : w = [] := hw
      exact (exec_inBody_issues h rfl rfl).trans (execEn4bBus_awaited (h.awaits rfl))
    · obtain rfl : w = [] := hw
      exact (exec_inBody_issues h rfl rfl).trans (execSe4_awaited (h.awaits rfl))
    · exact (exec_inBody_issues h rfl rfl).trans (execPp4_awaited (h.awaits rfl) hw)
  exact steps_one (hexec.trans (congrArg _ hdone)) rfl rfl

theorem check_step (hx : x.Checks) (h : s.inBody x .check p)
    (hok : argsOk x s.par (s.argsAt p).a (s.argsAt p).n = true) :
    s.Steps 1 { s with mstate := .run (p.goto (afterCheck x)) } := by
  have hexec := exec_check hx h
  rw [if_pos hok] at hexec
  exact steps_one hexec rfl rfl

theorem read_step (h : s.inBody .read .read4 p) (hs : s.Serves .read4 (s.argsAt p).a (s.argsAt p).n [] rd bus rx) :
    s.Steps 1 { s.sent .read4 (s.argsAt p).a (s.argsAt p).n [] rd bus rx with
      buf := s.buf.writeList 0 rd, mstate := .run (p.leave .ok) } := by
  have hexec := exec_read4_read h
  rw [hs.xact, hs.record] at hexec
  exact steps_one hexec rfl rfl

theorem verify_read_step (hx : x.Verifies) (h : s.inBody x .read4 p)
    (hs : s.Serves .read4 (s.argsAt p).a (s.argsAt p).n [] rd bus rx) :
    s.Steps 1 { s.sent .read4 (s.argsAt p).a (s.argsAt p).n [] rd bus rx with
      mstate := .run (p.goto (.compare rd)) } := by
  have hexec := exec_read4_verifies hx h
  rw [hs.xact, hs.record] at hexec
  exact steps_one hexec rfl rfl

theorem firstMismatch_self (rd : List Byte) : firstMismatch rd rd 0 = none :=
  firstMismatch_none rd rd 0 rfl fun _ _ => rfl

/-- The compare of the bytes that the operation expects (R602, R605). -/
theorem compare_step (h : s.inBody x (.compare rd) p)
    (hrd : (x = .verifyErased ∧ rd = List.replicate (s.argsAt p).n.toNat s.par.erasedByte) ∨
      (x = .verifyData ∧ s.buf.readList 0 (s.argsAt p).n.toNat = some rd)) :
    s.Steps 1 { s with mstate := .run (p.leave .ok) } := by
  have hexec : exec s.opL.instr s = .next (s.compareWith p rd rd) := by
    obtain ⟨rfl, hrd⟩ | ⟨rfl, hrd⟩ := hrd
    · rw [exec_compareErased h, ← hrd]
    · exact exec_compareData h hrd
  rw [State.compareWith_none (firstMismatch_self rd)] at hexec
  exact steps_one hexec rfl rfl

/-! ## The bodies, when every call is `Ok` -/

/-- RESET's two transactions (R530). -/
theorem reset_steps (h : s.inBody .reset .rsten p) (hb : s.draws.bus = .ok :: .ok :: bus) :
    s.Steps 2 { s with
      bt := s.bt ++ [s.okRecord .rsten 0 0 [] []] ++ [s.okRecord .rst 0 0 [] []]
      draws := { s.draws with bus := bus }, phase := .idle, mstate := .run (p.leave .ok) } := by
  refine (rsten_step h (serves_none rfl hb)).cons ?_
  rw [← Pos.goto_leave p .rst]
  exact rst_step (h.goto rfl rfl rfl) (serves_none rfl rfl)

variable {tick : List Word} {t0 : Word} {c : Nat}

/-- The handshake whose first status byte shows WEL (R460). -/
theorem handshake_steps (hx : x.Handshakes) (h : s.inBody x .wren p)
    (hq : s.draws = ⟨.ok :: .ok :: .ok :: bus, b :: rx, t0 :: tick, c⟩) (hw : b.getLsbD s.par.welBit.val = true) :
    s.Steps 2 { s with
      bt := s.bt ++ [s.okRecord .wren 0 0 [] []] ++ [s.okRecord .rdsr 0 0 [] [b]]
      draws := ⟨bus, rx, tick, c⟩, phase := .weLatched, sr := b
      mstate := .run (if x = .writeEnable then p.leave .ok else p.goto .issue) } := by
  obtain ⟨s, rfl⟩ := State.exists_withDraws hq
  refine (wren_step hx h (serves_none rfl rfl)).cons ?_
  rw [← Pos.goto_leave p (.poll none), ← Pos.goto_goto p (.poll none) .issue]
  exact poll_wel_step (c := none) hx (h.goto rfl rfl rfl) (serves_read (rd := [b]) rfl rfl rfl rfl) hw

/-- `PHASE <- CMD_ISSUED`, then the command's transaction (R526). -/
theorem command_steps (hx : x.Mutates) (h : s.inBody x .issue p) (hb : s.draws.bus = commandCalls x ++ bus)
    (hd : commandData s p x w) :
    s.Steps 2 { s with
      bt := s.bt ++ [s.okRecord (commandRow x) (s.argsAt p).a (s.argsAt p).n w []]
      draws := { s.draws with bus := bus }, phase := .deviceBusy, mstate := .run (p.leave .ok) } := by
  refine (issue_step hx h).cons ?_
  rw [← Pos.goto_leave p .command, ← State.argsAt_goto s p .command]
  exact command_step hx (h.goto rfl rfl rfl) ((commandData_goto ..).mpr hd) (serves_command hx hb)

/-- A mutating operation's body after its argument checks (R526). -/
theorem mutate_steps (hx : x.Mutates) (h : s.inBody x .wren p)
    (hq : s.draws = ⟨.ok :: .ok :: .ok :: (commandCalls x ++ bus), b :: rx, t0 :: tick, c⟩)
    (hw : b.getLsbD s.par.welBit.val = true) (hd : commandData s p x w) :
    s.Steps 4 { s with
      bt := s.bt ++ [s.okRecord .wren 0 0 [] []] ++ [s.okRecord .rdsr 0 0 [] [b]] ++
        [s.okRecord (commandRow x) (s.argsAt p).a (s.argsAt p).n w []]
      draws := ⟨bus, rx, tick, c⟩, phase := .deviceBusy, sr := b, mstate := .run (p.leave .ok) } := by
  have hne : x ≠ .writeEnable := by obtain rfl | rfl | rfl := hx <;> decide
  have hshake := handshake_steps (.inr hx) h hq hw
  rw [if_neg hne] at hshake
  refine hshake.trans (k := 2) ?_
  rw [← Pos.goto_leave p .issue, ← State.argsAt_goto s p .issue]
  exact command_steps hx (h.goto rfl rfl rfl) rfl ((commandData_goto ..).mpr hd)

/-- A verify operation's READ4 and its compare, of the bytes it expects (R601). -/
theorem verify_steps (h : s.inBody x .read4 p)
    (hrd : (x = .verifyErased ∧ rd = List.replicate (s.argsAt p).n.toNat s.par.erasedByte) ∨
      (x = .verifyData ∧ s.buf.readList 0 (s.argsAt p).n.toNat = some rd))
    (hb : s.draws.bus = .ok :: .ok :: bus) (hr : s.draws.rx = rd ++ rx) :
    s.Steps 2 { s with
      bt := s.bt ++ [s.okRecord .read4 (s.argsAt p).a (s.argsAt p).n [] rd]
      draws := { s.draws with bus := bus, rx := rx }, mstate := .run (p.leave .ok) } := by
  have hx : x.Verifies := hrd.imp And.left And.left
  have hl : (s.argsAt p).n.toNat = rd.length := by
    obtain ⟨-, rfl⟩ | ⟨-, hrd⟩ := hrd
    · simp
    · exact (Memory.readList_eq_some.mp hrd).1.symm
  refine (verify_read_step hx h (serves_read rfl hl hb hr)).cons ?_
  rw [← Pos.goto_leave p (.compare rd)]
  exact compare_step (h.goto rfl rfl rfl) (by rwa [← State.argsAt_goto s p (.compare rd)] at hrd)

/-- ERASE's and PROGRAM's whole body (R545, R550). -/
theorem check_mutate_steps (hx : x = .erase ∨ x = .program) (h : s.inBody x .check p)
    (hok : argsOk x s.par (s.argsAt p).a (s.argsAt p).n = true)
    (hq : s.draws = ⟨.ok :: .ok :: .ok :: (commandCalls x ++ bus), b :: rx, t0 :: tick, c⟩)
    (hw : b.getLsbD s.par.welBit.val = true) (hd : commandData s p x w) :
    s.Steps 5 { s with
      bt := s.bt ++ [s.okRecord .wren 0 0 [] []] ++ [s.okRecord .rdsr 0 0 [] [b]] ++
        [s.okRecord (commandRow x) (s.argsAt p).a (s.argsAt p).n w []]
      draws := ⟨bus, rx, tick, c⟩, phase := .deviceBusy, sr := b, mstate := .run (p.leave .ok) } := by
  have hcheck := check_step (hx.imp id .inl) h hok
  rw [show afterCheck x = .wren from if_pos hx] at hcheck
  refine hcheck.cons ?_
  rw [← Pos.goto_leave p .wren, ← State.argsAt_goto s p .wren]
  exact mutate_steps (.inr hx) (h.goto rfl rfl rfl) hq hw ((commandData_goto ..).mpr hd)

/-- A verify operation's whole body (R601). -/
theorem check_verify_steps (h : s.inBody x .check p) (hok : argsOk x s.par (s.argsAt p).a (s.argsAt p).n = true)
    (hrd : (x = .verifyErased ∧ rd = List.replicate (s.argsAt p).n.toNat s.par.erasedByte) ∨
      (x = .verifyData ∧ s.buf.readList 0 (s.argsAt p).n.toNat = some rd))
    (hb : s.draws.bus = .ok :: .ok :: bus) (hr : s.draws.rx = rd ++ rx) :
    s.Steps 3 { s with
      bt := s.bt ++ [s.okRecord .read4 (s.argsAt p).a (s.argsAt p).n [] rd]
      draws := { s.draws with bus := bus, rx := rx }, mstate := .run (p.leave .ok) } := by
  have hx : x.Verifies := hrd.imp And.left And.left
  have hafter : afterCheck x = .read4 := by obtain rfl | rfl := hx <;> rfl
  have hcheck := check_step (.inr (.inr (.inr hx))) h hok
  rw [hafter] at hcheck
  refine hcheck.cons ?_
  rw [← Pos.goto_leave p .read4, ← State.argsAt_goto s p .read4]
  exact verify_steps (h.goto rfl rfl rfl) (by rwa [← State.argsAt_goto s p .read4] at hrd) hb hr

end Sys2Proof.Machine
end

section
/-! SUPPORT. The statements on whole operations: accept, the steps of the body, and `finish`. -/

namespace Sys2Proof.Machine

variable {s : State} {bus : List BusOutcome} {rx : List Byte} {tick : List Word} {b : Byte}

/-- The state after a poll that sampled, field by field. -/
theorem poll_sampled {c : Option PollTimes} {bus' : List BusOutcome} {rx' : List Byte} {t1 : Word} {n : Nat}
    (hq : (s.pollEntry c).draws = ⟨bus', rx', t1 :: tick, n⟩) :
    ((s.pollEntry c).sent .rdsr 0 0 [] [b] bus rx).afterNow =
      { s with bt := s.bt ++ [s.okRecord .rdsr 0 0 [] [b]], draws := ⟨bus, rx, tick, n⟩ } := by
  simp only [State.sent, State.afterNow, hq]
  rfl

/-- Two more calls per poll. -/
theorem replicate_calls {α : Type} (k : Nat) (x : α) (l : List α) :
    List.replicate (2 * (k + 1)) x ++ l = x :: x :: (List.replicate (2 * k) x ++ l) := by
  rw [show 2 * (k + 1) = 2 * k + 1 + 1 from rfl, List.replicate_succ, List.replicate_succ]
  rfl

/-- WRITE_ENABLE's polls without WEL, before the deadline and then past it (R453). -/
theorem wel_timeout_steps {bs : List Byte} {ts : List Word} {t1 : Word} {n : Nat} {c : Option PollTimes}
    (h : s.inBody .writeEnable (.poll c) (.op (.poll c))) (hg : s.par.pollGapMs = 0)
    (hq : (s.pollEntry c).draws =
      ⟨List.replicate (2 * (bs.length + 1)) .ok ++ bus, bs ++ b :: rx, ts ++ t1 :: tick, n⟩)
    (hl : ts.length = bs.length) (hw : ∀ x, x ∈ bs ++ [b] → x.getLsbD s.par.welBit.val = false)
    (hts : ∀ x, x ∈ ts → (elapsed (s.loopEntry c) x).toNat < s.par.tWelMs.toNat)
    (ht1 : s.par.tWelMs.toNat ≤ (elapsed (s.loopEntry c) t1).toNat) :
    s.Steps (bs.length + 1) { s with
      bt := s.bt ++ (bs ++ [b]).map fun x => s.okRecord .rdsr 0 0 [] [x]
      draws := ⟨bus, rx, tick, n⟩, phase := .idle, sr := b, mstate := .run (.op (.finish .timeout)) } := by
  induction bs generalizing s ts c with
  | nil =>
    obtain rfl := List.eq_nil_of_length_eq_zero hl
    have hstep := poll_expired_step (.inr (.inl rfl)) h
      (serves_read (rd := [b]) (rx := rx) (bus := bus) rfl rfl (congrArg Draws.bus hq) (congrArg Draws.rx hq))
      ((pollPred_handshake (by decide) b).trans (hw b (by simp))) (by rw [hq]; exact ht1)
    rwa [poll_sampled hq] at hstep
  | cons x bs ih =>
    obtain ⟨u, ts, rfl⟩ : ∃ u us, ts = u :: us := List.exists_cons_of_length_eq_add_one hl
    have hstep := poll_again_step (.inr (.inl rfl)) h
      (serves_read (rd := [x]) (rx := bs ++ b :: rx) (bus := List.replicate (2 * (bs.length + 1)) .ok ++ bus) rfl rfl
        ((congrArg Draws.bus hq).trans (replicate_calls ..)) (congrArg Draws.rx hq))
      ((pollPred_handshake (by decide) x).trans (hw x (by simp))) (by rw [hq]; exact hts u (by simp)) hg
    rw [poll_sampled hq, hq] at hstep
    refine hstep.cons ?_
    rw [show x :: bs ++ [b] = x :: (bs ++ [b]) from rfl, List.map_cons, List.append_cons _ _ (List.map _ _)]
    exact ih (ts := ts) (c := some ⟨s.loopEntry c, u⟩) (h.goto rfl rfl rfl) hg rfl (by simpa using hl)
      (fun y hy => hw y (List.mem_cons_of_mem x hy)) (fun y hy => hts y (List.mem_cons_of_mem u hy)) ht1

/-- WRITE_ENABLE's body when no status byte shows WEL (R461). -/
theorem write_enable_timeout_steps {bs : List Byte} {ts : List Word} {t0 t1 : Word} {n : Nat}
    (h : s.inBody .writeEnable .wren (.op .wren)) (hg : s.par.pollGapMs = 0)
    (hq : s.draws =
      ⟨.ok :: (List.replicate (2 * (bs.length + 1)) .ok ++ bus), bs ++ b :: rx, t0 :: (ts ++ t1 :: tick), n⟩)
    (hl : ts.length = bs.length) (hw : ∀ x, x ∈ bs ++ [b] → x.getLsbD s.par.welBit.val = false)
    (hts : ∀ x, x ∈ ts → (elapsed t0 x).toNat < s.par.tWelMs.toNat)
    (ht1 : s.par.tWelMs.toNat ≤ (elapsed t0 t1).toNat) :
    s.Steps (bs.length + 2) { s with
      bt := s.bt ++ s.okRecord .wren 0 0 [] [] :: (bs ++ [b]).map fun x => s.okRecord .rdsr 0 0 [] [x]
      draws := ⟨bus, rx, tick, n⟩, phase := .idle, sr := b, mstate := .run (.op (.finish .timeout)) } := by
  obtain ⟨s, rfl⟩ := State.exists_withDraws hq
  refine (wren_step (.inl rfl) h (serves_none rfl rfl)).cons ?_
  rw [List.append_cons _ _ (List.map _ _)]
  exact wel_timeout_steps (c := none) (h.goto rfl rfl rfl) hg rfl hl hw hts ht1

/-- Three records appended one after another. -/
theorem append_three {α : Type} (l : List α) (x y z : α) : l ++ [x] ++ [y] ++ [z] = l ++ [x, y, z] := by simp

end Sys2Proof.Machine

namespace Sys2Proof.Proofs
open Sys2Proof Sys2Proof.Machine

/-- Settles O37. -/
theorem resetRuns : Obligations.ResetRuns := by
  intro s bus hb hbus
  have hrun := execTimes_whole (o := .reset) (by decide) hb (reset_steps (s.accept_inBody (by decide)) hbus) rfl
  exact ⟨_, _, _, hrun, List.append_assoc .., rfl, rfl, rfl, rfl, rfl, rfl, rfl, rfl, rfl, rfl, rfl, rfl, rfl, rfl, rfl⟩

/-- Settles O42. -/
theorem readIdRuns : Obligations.ReadIdRuns := by
  intro s b0 b1 b2 bus rx hb hbus hrx
  have hsteps := rdid_step (rd := [b0, b1, b2]) (s.accept_inBody (o := .readId) (by decide))
    (serves_read rfl rfl hbus hrx)
  have hrun := execTimes_whole (o := .readId) (by decide) hb hsteps rfl
  exact ⟨_, _, hrun, rfl, rfl, rfl, rfl, rfl, rfl, rfl, rfl, rfl, rfl, rfl, rfl, rfl, rfl, rfl⟩

/-- Settles O44: the loop-entry sample is drawn, and no other. -/
theorem waitBusyRuns : Obligations.WaitBusyRuns := by
  intro s b bus rx hb hbus hrx hw
  have hsteps := poll_wip_step (s.accept_inBody (o := .waitBusy) (by decide))
    (serves_read (rd := [b]) rfl rfl ((s.draws.afterNow_bus).trans hbus) ((s.draws.afterNow_rx).trans hrx)) hw
  have hrun := execTimes_whole (o := .waitBusy) (by decide) hb hsteps rfl
  exact ⟨_, _, hrun, rfl, rfl, rfl, rfl, rfl, rfl, rfl, rfl, rfl, rfl, rfl, rfl, rfl⟩

/-- Settles O45. -/
theorem readRuns : Obligations.ReadRuns := by
  intro s b bus rx hb hargs hl hbus hrx
  have hin := s.accept_inBody (o := .read) (by decide)
  have hsteps := (check_step (.inr (.inr (.inl rfl))) hin hargs).cons
    (read_step (hin.goto rfl rfl rfl) (serves_read (rd := b) rfl hl.symm hbus hrx))
  have hrun := execTimes_whole (o := .read) (by decide) hb hsteps rfl
  refine ⟨_, _, hrun, rfl, rfl, rfl, rfl, rfl, rfl, rfl, rfl, rfl,
    Memory.readList_eq_some.mpr ⟨hl, fun k hk => ?_⟩, fun k hk => ?_⟩
  · exact (Memory.read_writeList b s.buf 0 (0 + k)).trans (by simp [hl, hk])
  · exact (Memory.read_writeList b s.buf 0 k).trans (by simp [Nat.not_lt.mpr hk])

/-- Settles O46. -/
theorem verifyRuns : Obligations.VerifyRuns := by
  intro s x b bus rx hb hx hargs hbus hrx
  obtain ⟨rfl, hrd⟩ | ⟨rfl, hrd⟩ := hx
  · have hsteps := check_verify_steps (s.accept_inBody (o := .verifyErased) (by decide)) hargs
      (.inl ⟨rfl, hrd⟩) hbus hrx
    have hrun := execTimes_whole (o := .verifyErased) (by decide) hb hsteps rfl
    exact ⟨_, _, hrun, rfl, rfl, rfl, rfl, rfl, rfl, rfl, rfl, rfl, rfl, rfl, rfl, rfl⟩
  · have hsteps := check_verify_steps (s.accept_inBody (o := .verifyData) (by decide)) hargs
      (.inr ⟨rfl, hrd⟩) hbus hrx
    have hrun := execTimes_whole (o := .verifyData) (by decide) hb hsteps rfl
    exact ⟨_, _, hrun, rfl, rfl, rfl, rfl, rfl, rfl, rfl, rfl, rfl, rfl, rfl, rfl, rfl⟩

/-- Settles O43. -/
theorem handshakeOperationsRun : Obligations.HandshakeOperationsRun := by
  intro s b t0 bus rx tick hb hbus hrx htick hw
  constructor
  · have hsteps := handshake_steps (.inl rfl) (s.accept_inBody (o := .writeEnable) (by decide))
      (Draws.eq_mk hbus hrx htick) hw
    have hrun := execTimes_whole (o := .writeEnable) (by decide) hb hsteps rfl
    exact ⟨_, _, _, hrun, List.append_assoc .., rfl, rfl, rfl, rfl, rfl, rfl, rfl, rfl, rfl, rfl⟩
  · have hsteps := mutate_steps (.inl rfl) (s.accept_inBody (o := .en4b) (by decide))
      (Draws.eq_mk hbus hrx htick) hw rfl
    have hrun := execTimes_whole (o := .en4b) (by decide) hb hsteps rfl
    exact ⟨_, _, _, _, hrun, append_three .., rfl, rfl, rfl, rfl, rfl, rfl, rfl, rfl, rfl, rfl, rfl⟩

/-- Settles O39. -/
theorem eraseRuns : Obligations.EraseRuns := by
  intro s b t0 bus rx tick hb hargs hbus hrx htick hw
  have hsteps := check_mutate_steps (.inl rfl) (s.accept_inBody (o := .erase) (by decide)) hargs
    (Draws.eq_mk hbus hrx htick) hw rfl
  have hrun := execTimes_whole (o := .erase) (by decide) hb hsteps rfl
  exact ⟨_, _, _, _, hrun, append_three .., rfl, rfl, rfl, rfl, rfl, rfl, rfl, rfl, rfl, rfl, rfl, rfl, rfl, rfl, rfl⟩

/-- Settles O40. -/
theorem programRuns : Obligations.ProgramRuns := by
  intro s b t0 wdata bus rx tick hb hargs hdata hbus hrx htick hw
  have hsteps := check_mutate_steps (.inr rfl) (s.accept_inBody (o := .program) (by decide)) hargs
    (Draws.eq_mk hbus hrx htick) hw hdata
  have hrun := execTimes_whole (o := .program) (by decide) hb hsteps rfl
  exact ⟨_, _, _, _, hrun, append_three .., rfl, rfl, rfl, rfl, rfl, rfl, rfl, rfl, rfl, rfl, rfl⟩

/-- Settles O38: by induction on the status bytes. -/
theorem writeEnableTimesOut : Obligations.WriteEnableTimesOut := by
  intro s bs b t0 t1 ts bus rx tick hb hg hl hbus hrx htick hw hts ht1
  have hsteps := write_enable_timeout_steps (s.accept_inBody (o := .writeEnable) (by decide)) hg
    (Draws.eq_mk hbus hrx htick) hl hw hts ht1
  have hrun := execTimes_whole (o := .writeEnable) (by decide) hb hsteps rfl
  refine ⟨_, _, _, hrun, rfl, rfl, rfl, by simp [State.okRecord, Function.comp_def], fun r hr => ?_,
    rfl, rfl, rfl, rfl, rfl, rfl, rfl, rfl, rfl⟩
  obtain ⟨x, -, rfl⟩ := List.mem_map.mp hr
  exact ⟨rfl, rfl⟩

end Sys2Proof.Proofs
end

section
/-! SUPPORT. SELFTEST's end-to-end scenario, one test step at a time (R610, example). -/

namespace Sys2Proof.Machine

variable {s : State} {q : Seq}

/-- What SELFTEST's scenario changes: the state at position `p` with these answers left, records, events and registers. -/
def State.stage (s : State) (q : Draws) (bt : List BusRecord) (ev : List Event) (f : Phase) (sr : Byte) (id : BitVec 24)
    (idv : Bool) (no : BitVec 4) (p : Pos) : State :=
  { s with
    draws := q, bt := bt, ev := ev, phase := f, sr := sr, idBytes := id, idv := idv, stepNo := no, mstate := .run p }

theorem State.stage_self {q : Draws} {p : Pos} (hq : s.draws = q) (hp : s.mstate = .run p) :
    s.stage q s.bt s.ev s.phase s.sr s.idBytes s.idv s.stepNo p = s := by
  cases s
  cases hq
  cases hp
  rfl

/-- One of SELFTEST's own statements, but `finish` (R610). -/
theorem seq_step (h : s.runs .selftest (.seq q)) (hq : ∀ e, q ≠ .finish e) : s.Steps 1 (seqStep q s) := by
  have hexec := exec_selftest_seq h
  obtain ⟨-, ho, -⟩ := h
  refine steps_one (by rw [ho]; exact hexec) (seqStep_quiet q s).sameLatches.1 ?_
  cases q with
  | settle ts =>
    simp only [seqStep]
    split <;> rfl
  | finish e => exact absurd rfl (hq e)
  | _ => rfl

/-- The settle wait is over (R620). -/
theorem seqStep_settled {ts : Word} (h : s.par.settleTicks.toNat ≤ (elapsed ts s.draws.now).toNat) :
    seqStep (.settle ts) s = s.afterNow.moveTo (.seq (.pass .one)) :=
  if_pos (decide_eq_true h)

/-- The event of a step that passed (R631). -/
def passed (n : TestStep) (id : BitVec 24) : Event :=
  { step := n, op := n.op, outcome := .ok, id := if n = .two then some id else none
    offset := none, expected := none, observed := none }

/-- SELFTEST's page, at an erased subsector's start, fits BUF and the address space (R210, R212, R605). -/
theorem verifyData_page_ok {par : Params} {a : Word} (hwf : par.wf = true)
    (hp : argsOk .program par a par.pageSize = true) (he : argsOk .verifyErased par a par.subsectorSize = true) :
    argsOk .verifyData par a par.pageSize = true := by
  obtain ⟨hne, -, hpage⟩ := (programRange_iff par).mp hp
  obtain ⟨hsub, hend⟩ := readRange_iff.mp he
  simp only [Params.wf, Bool.and_eq_true, decide_eq_true_eq, beq_iff_eq] at hwf
  obtain ⟨⟨⟨⟨⟨hbuf, -⟩, -⟩, -⟩, hdvd⟩, -⟩ := hwf
  have hle := Nat.le_of_dvd (Nat.pos_of_ne_zero hsub) (Nat.dvd_of_mod_eq_zero hdvd)
  exact (readArgs_iff par).mpr ⟨hne, hbuf, by omega⟩

section
variable (hb : s.busy = true) (ho : s.opL = .selftest)
  {bus : List BusOutcome} {rx : List Byte} {tick : List Word} {n : Nat} {bt : List BusRecord} {ev : List Event}
  {f : Phase} {sr : Byte} {id : BitVec 24} {idv : Bool} {no : BitVec 4}
include hb ho

theorem stage_setStep (m : TestStep) (q : Draws) :
    (s.stage q bt ev f sr id idv no (.seq (.setStep m))).Steps 1 (s.stage q bt ev f sr id idv m.number m.first) :=
  seq_step (q := .setStep m) ⟨hb, ho, rfl⟩ nofun

theorem stage_pass (m : TestStep) (q : Draws) :
    (s.stage q bt ev f sr id idv no (.seq (.pass m))).Steps 1
      (s.stage q bt (ev ++ [passed m id]) f sr id idv no m.next) :=
  seq_step (q := .pass m) ⟨hb, ho, rfl⟩ nofun

theorem stage_settle {t1 t2 : Word} (hs : s.par.settleTicks.toNat ≤ (elapsed t1 t2).toNat) :
    (s.stage ⟨bus, rx, t1 :: t2 :: tick, n⟩ bt ev f sr id idv no (.seq .settleStart)).Steps 2
      (s.stage ⟨bus, rx, tick, n⟩ bt ev f sr id idv no (.seq (.pass .one))) := by
  have h1 : (s.stage ⟨bus, rx, t1 :: t2 :: tick, n⟩ bt ev f sr id idv no (.seq .settleStart)).Steps 1
      (s.stage ⟨bus, rx, t2 :: tick, n⟩ bt ev f sr id idv no (.seq (.settle t1))) :=
    seq_step (q := .settleStart) ⟨hb, ho, rfl⟩ nofun
  have h2 := seq_step (s := s.stage ⟨bus, rx, t2 :: tick, n⟩ bt ev f sr id idv no (.seq (.settle t1)))
    ⟨hb, ho, rfl⟩ nofun
  rw [seqStep_settled hs] at h2
  exact h1.cons h2

theorem stage_inBody (k : Sub) (m : Stmt) (q : Draws) :
    (s.stage q bt ev f sr id idv no (.sub k m)).inBody k.op m (.sub k m) :=
  ⟨hb, rfl, .inr ⟨k, rfl, rfl, ho⟩⟩

theorem stage_reset :
    (s.stage ⟨.ok :: .ok :: bus, rx, tick, n⟩ bt ev f sr id idv no (.sub .reset1 .rsten)).Steps 2
      (s.stage ⟨bus, rx, tick, n⟩ (bt ++ [s.okRecord .rsten 0 0 [] []] ++ [s.okRecord .rst 0 0 [] []]) ev .idle sr id
        idv no (.seq .settleStart)) :=
  reset_steps (p := .sub .reset1 .rsten) (stage_inBody hb ho ..) rfl

theorem stage_readId (b0 b1 b2 : Byte) :
    (s.stage ⟨.ok :: .ok :: bus, b0 :: b1 :: b2 :: rx, tick, n⟩ bt ev f sr id idv no (.sub .readId2 .rdid)).Steps 1
      (s.stage ⟨bus, rx, tick, n⟩ (bt ++ [s.okRecord .rdid 0 0 [] [b0, b1, b2]]) ev f sr (packId [b0, b1, b2]) true no
        (.seq (.pass .two))) :=
  rdid_step (p := .sub .readId2 .rdid) (stage_inBody hb ho ..) (serves_read (rd := [b0, b1, b2]) rfl rfl rfl rfl)

theorem stage_wait (k : Sub) (hk : k.op = .waitBusy) {t0 : Word} {b : Byte} (hw : b.getLsbD s.par.wipBit.val = false) :
    (s.stage ⟨.ok :: .ok :: bus, b :: rx, t0 :: tick, n⟩ bt ev f sr id idv no (.sub k (.poll none))).Steps 1
      (s.stage ⟨bus, rx, tick, n⟩ (bt ++ [s.okRecord .rdsr 0 0 [] [b]]) ev (if f = .deviceBusy then .idle else f) b id
        idv no (k.after .ok)) :=
  poll_wip_step (c := none) (p := .sub k (.poll none)) (hk ▸ stage_inBody hb ho ..)
    (serves_read (rd := [b]) rfl rfl rfl rfl) hw

theorem stage_en4b {t0 : Word} {b : Byte} (hw : b.getLsbD s.par.welBit.val = true) :
    (s.stage ⟨.ok :: .ok :: .ok :: .ok :: bus, b :: rx, t0 :: tick, n⟩ bt ev f sr id idv no (.sub .en4b3 .wren)).Steps 4
      (s.stage ⟨bus, rx, tick, n⟩ (bt ++ [s.okRecord .wren 0 0 [] []] ++ [s.okRecord .rdsr 0 0 [] [b]] ++
          [s.okRecord .en4b s.addrL s.lenL [] []]) ev .deviceBusy b id idv no (.sub .wait3 (.poll none))) :=
  mutate_steps (w := []) (p := .sub .en4b3 .wren) (.inl rfl) (stage_inBody hb ho ..) rfl hw rfl

theorem stage_mutate (k : Sub) (hk : k.op = .erase ∨ k.op = .program) {t0 : Word} {b : Byte} {w : List Byte}
    (hok : argsOk k.op s.par s.addrL (k.len s) = true) (hw : b.getLsbD s.par.welBit.val = true)
    (hd : if k.op = .program then s.buf.readList 0 (k.len s).toNat = some w else w = []) :
    (s.stage ⟨.ok :: .ok :: .ok :: (commandCalls k.op ++ bus), b :: rx, t0 :: tick, n⟩ bt ev f sr id idv no
        (.sub k .check)).Steps 5
      (s.stage ⟨bus, rx, tick, n⟩ (bt ++ [s.okRecord .wren 0 0 [] []] ++ [s.okRecord .rdsr 0 0 [] [b]] ++
          [s.okRecord (commandRow k.op) s.addrL (k.len s) w []]) ev .deviceBusy b id idv no (k.after .ok)) :=
  check_mutate_steps (w := w) (p := .sub k .check) hk (stage_inBody hb ho ..) hok rfl hw hd

theorem stage_verify (k : Sub) {rd : List Byte} (hok : argsOk k.op s.par s.addrL (k.len s) = true)
    (hrd : (k.op = .verifyErased ∧ rd = List.replicate (k.len s).toNat s.par.erasedByte) ∨
      (k.op = .verifyData ∧ s.buf.readList 0 (k.len s).toNat = some rd)) :
    (s.stage ⟨.ok :: .ok :: bus, rd ++ rx, tick, n⟩ bt ev f sr id idv no (.sub k .check)).Steps 3
      (s.stage ⟨bus, rx, tick, n⟩ (bt ++ [s.okRecord .read4 s.addrL (k.len s) [] rd]) ev f sr id idv no
        (k.after .ok)) :=
  check_verify_steps (p := .sub k .check) (stage_inBody hb ho ..) hok hrd rfl rfl

theorem selftest_steps {t1 t2 t3 t4 t5 t6 t7 t8 : Word} {i0 i1 i2 e3 w3 e4 w4 e6 w7 : Byte} {erased pattern : List Byte}
    (hs : s.par.settleTicks.toNat ≤ (elapsed t1 t2).toNat)
    (herase : argsOk .erase s.par s.addrL s.par.subsectorSize = true)
    (hprogram : argsOk .program s.par s.addrL s.par.pageSize = true)
    (hverify : argsOk .verifyErased s.par s.addrL s.par.subsectorSize = true)
    (hdata : argsOk .verifyData s.par s.addrL s.par.pageSize = true)
    (herased : erased = List.replicate s.par.subsectorSize.toNat s.par.erasedByte)
    (hpattern : s.buf.readList 0 s.par.pageSize.toNat = some pattern)
    (he3 : e3.getLsbD s.par.welBit.val = true) (he4 : e4.getLsbD s.par.welBit.val = true)
    (he6 : e6.getLsbD s.par.welBit.val = true) (hw3 : w3.getLsbD s.par.wipBit.val = false)
    (hw4 : w4.getLsbD s.par.wipBit.val = false) (hw7 : w7.getLsbD s.par.wipBit.val = false) :
    ∃ bt' ev', (s.stage ⟨List.replicate 27 .ok ++ bus, i0 :: i1 :: i2 :: e3 :: w3 :: e4 :: w4 ::
          (erased ++ e6 :: w7 :: (pattern ++ rx)), t1 :: t2 :: t3 :: t4 :: t5 :: t6 :: t7 :: t8 :: tick, n⟩
        bt ev f sr id idv no (.seq (.setStep .one))).Steps 46
      (s.stage ⟨bus, rx, tick, n⟩ bt' ev' .idle w7 (packId [i0, i1, i2]) true 9 (.seq (.finish .ok))) ∧
      bt'.map (·.desc) = bt.map (·.desc) ++ selftestDescs s.par s.addrL ∧
      ev'.map (fun e => (e.step, e.op, e.outcome)) = ev.map (fun e => (e.step, e.op, e.outcome)) ++ selftestEvents := by
  refine ⟨?_, ?_, ?steps, ?descs, ?events⟩
  case steps =>
    refine .cons (stage_setStep hb ho .one _) ?_
    refine .trans (k := 43) (stage_reset hb ho) ?_
    refine .trans (k := 41) (stage_settle hb ho hs) ?_
    refine .cons (stage_pass hb ho .one _) ?_
    refine .cons (stage_setStep hb ho .two _) ?_
    refine .cons (stage_readId hb ho i0 i1 i2) ?_
    refine .cons (stage_pass hb ho .two _) ?_
    refine .cons (stage_setStep hb ho .three _) ?_
    refine .trans (k := 32) (stage_en4b hb ho he3) ?_
    refine .cons (stage_wait hb ho .wait3 rfl hw3) ?_
    refine .cons (stage_pass hb ho .three _) ?_
    refine .cons (stage_setStep hb ho .four _) ?_
    refine .trans (k := 24) (stage_mutate (w := []) hb ho .erase4 (.inl rfl) herase he4 rfl) ?_
    refine .cons (stage_wait hb ho .wait4 rfl hw4) ?_
    refine .cons (stage_pass hb ho .four _) ?_
    refine .cons (stage_setStep hb ho .five _) ?_
    refine .trans (k := 18) (stage_verify hb ho .verifyErased5 hverify (.inl ⟨rfl, herased⟩)) ?_
    refine .cons (stage_pass hb ho .five _) ?_
    refine .cons (stage_setStep hb ho .six _) ?_
    refine .trans (k := 11) (stage_mutate (w := pattern) hb ho .program6 (.inr rfl) hprogram he6 hpattern) ?_
    refine .cons (stage_pass hb ho .six _) ?_
    refine .cons (stage_setStep hb ho .seven _) ?_
    refine .cons (stage_wait hb ho .wait7 rfl hw7) ?_
    refine .cons (stage_pass hb ho .seven _) ?_
    refine .cons (stage_setStep hb ho .eight _) ?_
    refine .trans (k := 3) (stage_verify hb ho .verifyData8 hdata (.inr ⟨rfl, hpattern⟩)) ?_
    refine .cons (stage_pass hb ho .eight _) ?_
    refine .cons (stage_setStep hb ho .nine _) ?_
    exact stage_pass hb ho .nine _
  case descs =>
    simp only [List.map_append, List.append_assoc]
    rfl
  case events =>
    simp only [List.map_append, List.append_assoc]
    rfl

end

end Sys2Proof.Machine

/-! ## The statement of 43_verify_selftest.md on the whole of SELFTEST -/

namespace Sys2Proof.Proofs
open Sys2Proof Sys2Proof.Machine

/-- Settles O47: the seventeen transactions and the nine events, step by step. -/
theorem selftestEndToEnd : Obligations.SelftestEndToEnd := by
  intro s t1 t2 t3 t4 t5 t6 t7 t8 i0 i1 i2 e3 w3 e4 w4 e6 w7 pattern bus rx tick hb hwf herase hprogram hverify hpattern
    hbus hrx htick hs he3 he4 he6 hw3 hw4 hw7
  have hq := Draws.eq_mk hbus hrx htick
  obtain ⟨bt, ev, hsteps, hbt, hev⟩ := selftest_steps (s := s.accept .selftest) (bt := s.bt) (ev := s.ev) (f := s.phase)
    (sr := s.sr) (id := s.idBytes) (idv := s.idv) (no := 0) (n := s.draws.next) (bus := bus) (rx := rx) (tick := tick)
    (t3 := t3) (t4 := t4) (t5 := t5) (t6 := t6) (t7 := t7) (t8 := t8) (i0 := i0) (i1 := i1) (i2 := i2)
    rfl rfl hs herase hprogram hverify (verifyData_page_ok hwf hprogram hverify) rfl hpattern he3 he4 he6 hw3 hw4 hw7
  have hstart := State.stage_self (s := s.accept .selftest) hq rfl
  have hrun := execTimes_selftest hb (hstart ▸ hsteps) rfl
  exact ⟨_, hrun, rfl, rfl, rfl, rfl, rfl, rfl, rfl, rfl, rfl, rfl, rfl, hbt, hev⟩

end Sys2Proof.Proofs
end

section
/-! SUPPORT. What DeviceContract says of an erase, a poll and a read of one subsector (R225, R227, R816). -/

namespace Sys2Proof.Machine

variable {par : Params} {cap : Nat} {d e : Device} {evs : List DeviceEvent}

/-- After an accepted SE4 the device is busy, with the erased subsector as its goal (R225). -/
theorem DeviceContract.after_erase {r : BusRecord} {a : Word} (h : DeviceContract par cap d (.xact .se4 r :: evs) e)
    (hs : d.standing = .bound) (hw : d.wip = false) (hl : d.wel = true) (hm : d.mode4 = true)
    (hd : r.desc = mkDesc par.ins .se4 a 0) (hok : r.outcome = .ok) (ha : a.toNat % par.subsectorSize.toNat = 0)
    (hc : withinCapacity cap a par.subsectorSize.toNat) :
    ∃ d1, DeviceContract par cap d1 evs e ∧ d1.standing = .bound ∧ d1.wip = true ∧ d1.mode4 = true ∧
      ∀ b, inSpan a par.subsectorSize.toNat b → d1.goal b = par.erasedByte := by
  obtain ⟨d1, hans, hrest⟩ := h.xact_idle hw
  have hmut : d.mutates (d.erases par cap r.desc.addr d1) d1 := Device.answers_bound hs hok hans
  have haddr : r.desc.addr = a := by rw [hd]; rfl
  rw [haddr] at hmut
  obtain ⟨goal, hgoal, f, -, rfl⟩ := (hmut hw).2 hl hm ha hc
  exact ⟨_, hrest, hs, rfl, hm, hgoal⟩

/-- A poll that shows WIP = 0 comes after the device's cycle (R221, R224). -/
theorem DeviceContract.after_clear_poll {r : BusRecord} {b : Byte}
    (h : DeviceContract par cap d (.xact .rdsr r :: evs) e)
    (hs : d.standing = .bound) (hw : d.wip = true) (hok : r.outcome = .ok) (hr : r.rdata = [b])
    (hb : wipClear par b = true) : DeviceContract par cap d.complete.disarm evs e := by
  obtain ⟨d1, hans, hrest⟩ | ⟨-, d1, hans, hrest⟩ := h.xact_cases
  · obtain ⟨-, b', hb', hwip, -⟩ : _ ∧ _ := Device.answers_bound hs hok hans
    obtain rfl : b = b' := by simpa [hr] using hb'
    have hclear : b.getLsbD par.wipBit.val = false := (pollPred_eq_true_iff par .waitBusy b).mp hb
    rw [hwip, hw] at hclear
    cases hclear
  · obtain ⟨rfl, -⟩ : _ ∧ _ := Device.answers_bound (d := d.complete) hs hok hans
    exact hrest

/-- A READ4 of an idle device returns its contents (R227). -/
theorem DeviceContract.read_contents {r : BusRecord} {a n : Word}
    (h : DeviceContract par cap d (.xact .read4 r :: evs) e)
    (hs : d.standing = .bound) (hw : d.wip = false) (hm : d.mode4 = true) (hd : r.desc = mkDesc par.ins .read4 a n)
    (hok : r.outcome = .ok) (ha : readRange a n = true) (hc : withinCapacity cap a n.toNat) :
    ∀ k, k < n.toNat → r.rdata.getD k 0 = d.flash (a + BitVec.ofNat 32 k) := by
  obtain ⟨d1, hans, -⟩ := h.xact_idle hw
  have hread : d.reads cap r.desc.addr r.desc.dlen r.rdata d1 := Device.answers_bound hs hok hans
  have haddr : r.desc.addr = a ∧ r.desc.dlen = n := by rw [hd]; exact ⟨rfl, rfl⟩
  rw [haddr.1, haddr.2] at hread
  exact (hread hm ha hc).2 hw

/-- A byte of a range that does not run past the top lies in its span (R212). -/
theorem inSpan_add {a n : Word} (h : readRange a n = true) {k : Nat} (hk : k < n.toNat) :
    inSpan a n.toNat (a + BitVec.ofNat 32 k) := by
  obtain ⟨-, hend⟩ := readRange_iff.mp h
  have hadd : (a + BitVec.ofNat 32 k).toNat = a.toNat + k := by
    rw [BitVec.toNat_add, BitVec.toNat_ofNat]
    omega
  rw [inSpan, hadd]
  omega

theorem eq_replicate_of_getD {l : List Byte} {n : Nat} {x : Byte} (hl : l.length = n)
    (h : ∀ k, k < n → l.getD k 0 = x) : l = List.replicate n x := by
  refine List.eq_replicate_iff.mpr ⟨hl, fun y hy => ?_⟩
  obtain ⟨k, hk, rfl⟩ := List.getElem_of_mem hy
  simpa [hk] using h k (hl ▸ hk)

/-- SE4, a poll that shows WIP = 0, and a READ4 of the subsector: every byte read is `ERASED_BYTE` (R225, R227). -/
theorem DeviceContract.erased_read {r1 r2 r3 : BusRecord} {a n : Word} {b : Byte}
    (h : DeviceContract par cap d (.xact .se4 r1 :: .xact .rdsr r2 :: .xact .read4 r3 :: evs) e)
    (hs : d.standing = .bound) (hw : d.wip = false) (hl : d.wel = true) (hm : d.mode4 = true)
    (hd1 : r1.desc = mkDesc par.ins .se4 a 0) (ho1 : r1.outcome = .ok) (ha : a.toNat % par.subsectorSize.toNat = 0)
    (hn : n = par.subsectorSize) (hc : withinCapacity cap a n.toNat) (ho2 : r2.outcome = .ok) (hr2 : r2.rdata = [b])
    (hb : wipClear par b = true) (hd3 : r3.desc = mkDesc par.ins .read4 a n) (ho3 : r3.outcome = .ok)
    (hr : readRange a n = true) (k : Nat) (hk : k < n.toNat) : r3.rdata.getD k 0 = par.erasedByte := by
  subst hn
  obtain ⟨d1, hbusy, hs1, hw1, hm1, hgoal⟩ := h.after_erase hs hw hl hm hd1 ho1 ha hc
  have hidle := hbusy.after_clear_poll hs1 hw1 ho2 hr2 hb
  rw [hidle.read_contents hs1 rfl hm1 hd3 ho3 hr hc k hk]
  exact hgoal _ (inSpan_add hr hk)

/-! ## What the machine's steps show the device -/

variable {s t : State} {p : Pos} {k : Nat}

theorem step_of_inbox_nil (hi : s.inbox = []) (hp : s.mstate = .run p) : step s = exec s.opL.instr s := by
  simp only [step, State.fetch, hi, hp]

theorem runEvents_succ (h : step s = .next t) : s.runEvents (k + 1) = s.deviceEvents t ++ t.runEvents k := by
  simp only [State.runEvents, h]

/-- A statement of a body without a transaction shows the device nothing. -/
theorem State.deviceEvents_body {x : Op} {m : Stmt} (hi : s.inbox = []) (h : s.inBody x m p)
    (hn : (Pos.op m).issues x = none) : s.deviceEvents t = [] := by
  have hissues := h.issues.trans hn
  obtain rfl | ⟨k, rfl⟩ := h.pos <;> simp [State.deviceEvents, hi, h.mstate, hissues]

theorem State.Steps.exec_one (h : s.Steps 1 t) : exec s.opL.instr s = .next t := by
  have hrun := h.run
  cases hs : exec s.opL.instr s with
  | next u => rwa [execTimes_succ 0 hs] at hrun
  | fault f | refused r => simp [execTimes, hs] at hrun

theorem BusRecord.result_of_ok {r : BusRecord} (h : r.outcome = .ok) : r.result = .ok r.rdata := by
  simp only [BusRecord.result, h]

/-- VERIFY_ERASED once its READ4 has returned `rd` (R601). -/
def State.holds (s : State) (rd : List Byte) : State :=
  { s.xact (s.desc .read4 s.addrL s.lenL) [] with mstate := .run (.op (.compare rd)) }

theorem exec_read4_holds {rd : List Byte} (h : s.inBody .verifyErased .read4 (.op .read4))
    (hr : (s.record (s.desc .read4 s.addrL s.lenL) []).result = .ok rd) :
    exec s.opL.instr s = .next (s.holds rd) := by
  have hexec := exec_read4_verifies (.inl rfl) h
  change exec s.opL.instr s = .next { s.xact (s.desc .read4 s.addrL s.lenL) [] with
    mstate := .run ((s.record (s.desc .read4 s.addrL s.lenL) []).result.elim _ _) } at hexec
  rw [hr] at hexec
  exact hexec

end Sys2Proof.Machine

namespace Sys2Proof.Proofs
open Sys2Proof Sys2Proof.Machine

/-- Settles O60. -/
theorem erasedRegionVerifies : Obligations.ErasedRegionVerifies := by
  rintro s cap d e r1 r2 r3 b hrun hargs hlen halign hcap hbound hwip hwel hmode4 hd1 ho1 hd2 ho2 hr2 hclear rfl
    ho3 hdev
  obtain ⟨hb, ho, hp⟩ := hrun
  have hin : s.inBody .verifyErased .read4 (.op .read4) := ⟨hb, hp, .inl ⟨rfl, ho⟩⟩
  have hread := hdev.erased_read hbound hwip hwel hmode4 hd1 ho1 halign hlen hcap ho2 hr2 hclear
    (State.record_desc ..) ho3 hargs
  have hlength : (s.record (s.desc .read4 s.addrL s.lenL) []).rdata.length = s.lenL.toNat :=
    (transfer_rdata_length ..).trans (if_pos ⟨rfl, ho3⟩)
  have hfirst := exec_read4_holds hin (BusRecord.result_of_ok ho3)
  have hheld := hin.goto (t := s.holds (s.record (s.desc .read4 s.addrL s.lenL) []).rdata)
    (m' := .compare _) rfl rfl rfl
  have hcompare := compare_step hheld (.inl ⟨rfl, eq_replicate_of_getD hlength hread⟩)
  have hsteps := (steps_one hfirst rfl rfl).cons hcompare
  have hrun : execTimes 2 .verifyErased s = _ := (congrArg (fun o => execTimes 2 o.instr s) ho).symm.trans hsteps.run
  refine ⟨⟨_, hrun, rfl, rfl, rfl⟩, fun hi => ?_⟩
  have hstep := (step_of_inbox_nil hi hp).trans hfirst
  have hlast := (step_of_inbox_nil (s := s.holds _) hi rfl).trans hcompare.exec_one
  rw [runEvents_succ hstep, runEvents_succ hlast, State.deviceEvents_body (s := s.holds _) hi hheld rfl,
    State.deviceEvents_xact (name := .read4) (.inl hi) hp rfl rfl]
  rfl

end Sys2Proof.Proofs
end
